-- ==== Sys2Proof/Word.lean ====
section
/-! DEFINITION. The widths of spec/00_scope.md rule R5 as types. Bit 0 is the least significant bit of every word and
register (R6). A register of type uN is a `BitVec N` read by `toNat`; one of type sN is a `BitVec N` read by `toInt`
(two's complement, R6; log 6). -/

namespace Sys2Proof

/-- An operation word, 40 bits (R50; OP_W of R5). -/
abbrev OpWord := BitVec 40

/-- A response word, 36 bits (R54; RESP_W of R5). -/
abbrev RespWord := BitVec 36

/-- u32: the data registers, the configuration registers, the data fields (DATA_W of R5). -/
abbrev Data := BitVec 32

/-- u16: a raw counter value (RAW_W of R5). -/
abbrev Raw := BitVec 16

/-- u16: ROLLOVER (ROLL_W of R5). -/
abbrev Roll := BitVec 16

/-- s64: ERR, PREV_ERR, INTEG (ACC_W of R5), in two's complement. -/
abbrev Acc := BitVec 64

/-- u7: DUTY (DUTY_W of R5). -/
abbrev Duty := BitVec 7

end Sys2Proof
end

