-- ==== Sys2Proof/Syntax.lean ====
section
/-! DEFINITION. The operation set TEWD-OP version 1 (R2, R52): one constructor for each row of spec/opcode_table.json.
Operands are typed by the width R51 gives them, so an operand out of range cannot be written (log 14). -/

namespace Sys2Proof

inductive Instr where
  /-- WRAP: the counter passed from 0xFFFF to 0x0000 (R65). -/
  | wrap
  /-- EDGE raw: an encoder edge was captured at `raw` (R75). -/
  | edge (raw : Raw)
  /-- OVFCHK: the overflow-check path runs (R66). -/
  | ovfchk
  /-- TICK: one control step (R85). -/
  | tick
  /-- SETTGT v: set the target speed, in RPM (R86). -/
  | settgt (v : Data)
  /-- GETSPD: read SPEED (R105). -/
  | getspd
  /-- GETDUTY: read DUTY (R106). -/
  | getduty
  /-- GETSTAT: read the STATUS view (R107). -/
  | getstat
  /-- WRCFG KP, v: cfg[0] (R27, R108). -/
  | wrcfgKp (v : Data)
  /-- WRCFG KI, v: cfg[1] (R28, R108). -/
  | wrcfgKi (v : Data)
  /-- WRCFG KD, v: cfg[2] (R29, R108). -/
  | wrcfgKd (v : Data)
  /-- WRCFG GAIN_DEN, v: cfg[3] (R30, R108). -/
  | wrcfgGainDen (v : Data)
  /-- WRCFG MAX_SPEED, v: cfg[4] (R31, R108). -/
  | wrcfgMaxSpeed (v : Data)
  /-- WRCFG PPR, v: cfg[5] (R32, R108). -/
  | wrcfgPpr (v : Data)
  /-- WRCFG GEAR_RATIO, v: cfg[6] (R33, R108). -/
  | wrcfgGearRatio (v : Data)
  /-- WRCFG TICK_FREQ, v: cfg[7] (R34, R108). -/
  | wrcfgTickFreq (v : Data)
  /-- WRCFG ACT_PERIOD, v: cfg[8] (R35, R108). -/
  | wrcfgActPeriod (v : Data)
  /-- WRCFG LOW_THRESHOLD, v: cfg[9] (R36, R108). -/
  | wrcfgLowThreshold (v : Data)
  /-- INIT: check the configuration and start (R110). -/
  | init
deriving DecidableEq, Repr

end Sys2Proof
end

