-- ==== Sys2Proof/Decode.lean ====
section
/-! DEFINITION. The fields of an operation word (R50), the decoder (R51 to R53, R56, R58), total on all 2^40 words and
rejecting by name, the encoder (R52, R59), and the opcode map as a table of rows (R52). -/

namespace Sys2Proof

/-! ## Fields (R50) -/

def opField (w : OpWord) : BitVec 4 := w.extractLsb' 36 4

def idxField (w : OpWord) : BitVec 4 := w.extractLsb' 32 4

def dataField (w : OpWord) : Data := w.extractLsb' 0 32

/-- EDGE's operand, `data[15:0]` (R51). -/
def rawField (w : OpWord) : Raw := w.extractLsb' 0 16

/-- `data[31:16]`, which must be 0 in EDGE (R56). -/
def highField (w : OpWord) : BitVec 16 := w.extractLsb' 16 16

/-- The word of three fields (R50). -/
def packWord (op idx : BitVec 4) (data : Data) : OpWord := op ++ idx ++ data

/-! ## Decoding -/

/-- Why a word is illegal (R58). The block answers all of them alike, ILLEGAL_OP with data 0; the names are the
model's (log 13). -/
inductive Illegal where
  /-- op is 0x0 or 0xB to 0xF. -/
  | unassignedOpcode
  /-- op is 0x9 and idx is 10 or more. -/
  | noSuchCfgRegister
  /-- idx is not 0 in an operation other than WRCFG (R56). -/
  | idxNotZero
  /-- data is not 0 in an operation without operand (R56). -/
  | dataNotZero
  /-- data[31:16] is not 0 in EDGE (R56). -/
  | edgeHighNotZero
deriving DecidableEq, Repr

/-- An operation without operand: idx and data must be 0 (R56). -/
def decodePlain (w : OpWord) (i : Instr) : Except Illegal Instr :=
  if idxField w ≠ 0 then .error .idxNotZero
  else if dataField w ≠ 0 then .error .dataNotZero
  else .ok i

/-- EDGE: idx and data[31:16] must be 0 (R51, R56). -/
def decodeEdge (w : OpWord) : Except Illegal Instr :=
  if idxField w ≠ 0 then .error .idxNotZero
  else if highField w ≠ 0 then .error .edgeHighNotZero
  else .ok (.edge (rawField w))

/-- SETTGT: idx must be 0 (R51, R56). -/
def decodeSettgt (w : OpWord) : Except Illegal Instr :=
  if idxField w ≠ 0 then .error .idxNotZero
  else .ok (.settgt (dataField w))

/-- WRCFG: idx selects the configuration register (R26, R41, R51). -/
def decodeWrcfg (w : OpWord) : Except Illegal Instr :=
  match (idxField w).toNat with
  | 0 => .ok (.wrcfgKp (dataField w))
  | 1 => .ok (.wrcfgKi (dataField w))
  | 2 => .ok (.wrcfgKd (dataField w))
  | 3 => .ok (.wrcfgGainDen (dataField w))
  | 4 => .ok (.wrcfgMaxSpeed (dataField w))
  | 5 => .ok (.wrcfgPpr (dataField w))
  | 6 => .ok (.wrcfgGearRatio (dataField w))
  | 7 => .ok (.wrcfgTickFreq (dataField w))
  | 8 => .ok (.wrcfgActPeriod (dataField w))
  | 9 => .ok (.wrcfgLowThreshold (dataField w))
  | _ => .error .noSuchCfgRegister

/-- The decoder: a function of the word alone (R53). -/
def decode (w : OpWord) : Except Illegal Instr :=
  match (opField w).toNat with
  | 0x1 => decodePlain w .wrap
  | 0x2 => decodeEdge w
  | 0x3 => decodePlain w .ovfchk
  | 0x4 => decodePlain w .tick
  | 0x5 => decodeSettgt w
  | 0x6 => decodePlain w .getspd
  | 0x7 => decodePlain w .getduty
  | 0x8 => decodePlain w .getstat
  | 0x9 => decodeWrcfg w
  | 0xA => decodePlain w .init
  | _ => .error .unassignedOpcode

/-- The decoder on a word numbered as spec/opcode_table.json numbers it: one 40-bit word, bit 0 its least significant
bit; the bits above `nbits` are 0. -/
def decodeTableWord (nbits w : Nat) : Option Instr :=
  if w % 2 ^ nbits < 2 ^ 40 then
    match decode (BitVec.ofNat 40 (w % 2 ^ nbits)) with
    | .ok i => some i
    | .error _ => none
  else none

/-! ## Encoding (R52, R59) -/

def encode : Instr → OpWord
  | .wrap => packWord 0x1 0 0
  | .edge raw => packWord 0x2 0 (0#16 ++ raw)
  | .ovfchk => packWord 0x3 0 0
  | .tick => packWord 0x4 0 0
  | .settgt v => packWord 0x5 0 v
  | .getspd => packWord 0x6 0 0
  | .getduty => packWord 0x7 0 0
  | .getstat => packWord 0x8 0 0
  | .wrcfgKp v => packWord 0x9 0 v
  | .wrcfgKi v => packWord 0x9 1 v
  | .wrcfgKd v => packWord 0x9 2 v
  | .wrcfgGainDen v => packWord 0x9 3 v
  | .wrcfgMaxSpeed v => packWord 0x9 4 v
  | .wrcfgPpr v => packWord 0x9 5 v
  | .wrcfgGearRatio v => packWord 0x9 6 v
  | .wrcfgTickFreq v => packWord 0x9 7 v
  | .wrcfgActPeriod v => packWord 0x9 8 v
  | .wrcfgLowThreshold v => packWord 0x9 9 v
  | .init => packWord 0xA 0 0

/-! ## The opcode map as a table (R52, spec/opcode_table.json) -/

structure Row where
  pattern : OpWord
  mask : OpWord
deriving DecidableEq, Repr

/-- "a word w selects a row when (w & mask) = match" (R52). -/
def Row.selects (r : Row) (w : OpWord) : Bool := w &&& r.mask == r.pattern

/-- The operand of a row must be 0 in every bit of its mask: `plainRow` none, `dataRow` 32 bits. -/
def plainRow (pattern : OpWord) : Row := ⟨pattern, 0xFFFFFFFFFF⟩

def dataRow (pattern : OpWord) : Row := ⟨pattern, 0xFF00000000⟩

/-- The row of an operation. -/
def rowOf : Instr → Row
  | .wrap => plainRow 0x1000000000
  | .edge _ => ⟨0x2000000000, 0xFFFFFF0000⟩
  | .ovfchk => plainRow 0x3000000000
  | .tick => plainRow 0x4000000000
  | .settgt _ => dataRow 0x5000000000
  | .getspd => plainRow 0x6000000000
  | .getduty => plainRow 0x7000000000
  | .getstat => plainRow 0x8000000000
  | .wrcfgKp _ => dataRow 0x9000000000
  | .wrcfgKi _ => dataRow 0x9100000000
  | .wrcfgKd _ => dataRow 0x9200000000
  | .wrcfgGainDen _ => dataRow 0x9300000000
  | .wrcfgMaxSpeed _ => dataRow 0x9400000000
  | .wrcfgPpr _ => dataRow 0x9500000000
  | .wrcfgGearRatio _ => dataRow 0x9600000000
  | .wrcfgTickFreq _ => dataRow 0x9700000000
  | .wrcfgActPeriod _ => dataRow 0x9800000000
  | .wrcfgLowThreshold _ => dataRow 0x9900000000
  | .init => plainRow 0xA000000000

/-- The nineteen rows, in the table's order. -/
def opcodeRows : List Row :=
  [plainRow 0x1000000000, ⟨0x2000000000, 0xFFFFFF0000⟩, plainRow 0x3000000000, plainRow 0x4000000000,
    dataRow 0x5000000000, plainRow 0x6000000000, plainRow 0x7000000000, plainRow 0x8000000000]
  ++ [dataRow 0x9000000000, dataRow 0x9100000000, dataRow 0x9200000000, dataRow 0x9300000000,
    dataRow 0x9400000000, dataRow 0x9500000000, dataRow 0x9600000000, dataRow 0x9700000000,
    dataRow 0x9800000000, dataRow 0x9900000000, plainRow 0xA000000000]

end Sys2Proof
end

