-- ==== Sys2Proof/Config.lean ====
section
/-! DEFINITION. The constants of spec/00_scope.md rule R5 that are values, not widths, and the two free values.
The gains, thresholds and periods are registers (R26), not constants. -/

namespace Sys2Proof.Config

/-- DUTY_MAX of R5: the upper actuator bound, percent. -/
def dutyMax : Nat := 100

/-- SEC_PER_MIN of R5, the source's secondsPerMinute; PRESUMED by the spec itself from general knowledge (G1; log 11). -/
def secPerMin : Nat := 60

/-- FREE VALUE (log 5). `fdiv(a, 0)`, which R6 does not define; no state a run reaches asks for it (R111, R124). -/
opaque fdivByZero : Nat → Nat

/-- FREE VALUE (log 7). `MAP_DUTY(duty)` where duty > 100 and the quotient does not fit 32 bits, which neither R101 nor
U4 gives; no state a run reaches asks for it (R24, R101). -/
opaque mapDutyBeyond : Duty → Data → Data

end Sys2Proof.Config
end

