-- ==== Sys2Proof/Machine/State.lean ====
section
/-! DEFINITION. The state (R10), the response (R54), the ports (R37), the reasons a step can stop, and reset (R141). -/

namespace Sys2Proof.Machine

/-- No operation and no word stops this machine: "What never raises anything" (R124), "an error never stalls or hangs
the port" (R121). So no reason for a fault exists. Safe: nothing is left out by it, since every step answers a next state. -/
inductive Fault
deriving DecidableEq, Repr

/-- Reasons to give no meaning. -/
inductive Refusal where
  /-- Raised by no arm: every operation has its meaning (the form the host reads asks for the constructor). Safe. -/
  | notModelled (mnemonic : String)
deriving DecidableEq, Repr

/-- MODE, the life-cycle register (R13). The u2 value 3 is never written and cannot be formed (U3; log 6). -/
inductive Mode where
  | unconfigured
  | running
  | fault
deriving DecidableEq, Repr

/-- The `code` field of a response (R54, R120); codes 5 to 15 are never produced (U2). -/
inductive Code where
  | ok
  | illegalOp
  | notRunning
  | cfgLocked
  | cfgError
deriving DecidableEq, Repr

/-- A response: its two fields (R54). -/
structure Response where
  code : Code
  data : Data
deriving DecidableEq, Repr

/-- The index names of the configuration file, in index order (R26). -/
inductive CfgReg where
  | kp
  | ki
  | kd
  | gainDen
  | maxSpeed
  | ppr
  | gearRatio
  | tickFreq
  | actPeriod
  | lowThreshold
deriving DecidableEq, Repr

/-- The configuration file cfg[0..9] (R26 to R36). -/
structure Cfg where
  kp : Data
  ki : Data
  kd : Data
  gainDen : Data
  maxSpeed : Data
  ppr : Data
  gearRatio : Data
  tickFreq : Data
  actPeriod : Data
  lowThreshold : Data
deriving DecidableEq, Repr

/-- "The complete state of the block" (R10): its fields are those of R10's table and no others. -/
structure Block where
  mode : Mode
  ovfPend : Bool
  wrapOverrun : Bool
  prevValid : Bool
  cfgErr : BitVec 3
  rollover : Roll
  prevTs : Data
  scale : Data
  speed : Data
  target : Data
  err : Acc
  prevErr : Acc
  integ : Acc
  duty : Duty
  cmp : Data
  cfg : Cfg
deriving DecidableEq, Repr

/-- What stands on the block's input pins when it makes a step (R37, R140). -/
inductive PortInput where
  /-- op_valid low and rst low. -/
  | idle
  /-- op_valid with this op_word, transferred and answered (R37). -/
  | op (w : OpWord)
  /-- rst between two operations (R140). -/
  | rst
  /-- This word is transferred and rst is asserted before its response (R140; U18; log 3). -/
  | abandoned (w : OpWord)
deriving DecidableEq, Repr

/-- The machine: the block, whose fields are all the state the spec gives it (R10), and its pins (R37): the response and
strobe outputs as the last step left them, and what stands on the inputs now. The program of operations is no field: it
is the environment's, which sets the input pins before each step (R11(e), R12, R134; log 1). -/
structure State where
  block : Block
  resp : Option Response
  cmpStrobe : Bool
  pins : PortInput
deriving DecidableEq, Repr

/-- Every configuration register resets to 0 (R141). -/
def Cfg.reset : Cfg := ⟨0, 0, 0, 0, 0, 0, 0, 0, 0, 0⟩

/-- Every register and flag resets to 0, MODE to UNCONFIGURED (R141). -/
def Block.reset : Block where
  mode := .unconfigured
  ovfPend := false
  wrapOverrun := false
  prevValid := false
  cfgErr := 0
  rollover := 0
  prevTs := 0
  scale := 0
  speed := 0
  target := 0
  err := 0
  prevErr := 0
  integ := 0
  duty := 0
  cmp := 0
  cfg := Cfg.reset

/-- The machine right after reset (R141): resp_valid low, cmp_strobe low, and nothing offered on the port (log 9). -/
def State.reset : State := ⟨Block.reset, none, false, .idle⟩

end Sys2Proof.Machine
end

