-- ==== Sys2Proof/Machine/Operands.lean ====
section
/-! DEFINITION. The notation of R6 as functions: how an operand or a register enters exact arithmetic and how a value
is brought back to a register's type; and access to the configuration file by register name (R6, R26). The operands
of a word itself are taken by Decode (R51). -/

namespace Sys2Proof.Machine

/-- `zext_32(v)` (R6): the same number at width 32 (used for widths up to 32). -/
def zext32 {m : Nat} (v : BitVec m) : Data := v.setWidth 32

/-- A flag as a one-bit number at width 32. -/
def flag32 (f : Bool) : Data := if f then 1 else 0

/-- `uwrap_N(z)` (R6): z mod 2^N. -/
def uwrap (n : Nat) (z : Int) : BitVec n := BitVec.ofInt n z

/-- `swrap_N(z)` (R6): the two's-complement word whose signed reading is congruent to z modulo 2^N. -/
def swrap (n : Nat) (z : Int) : BitVec n := BitVec.ofInt n z

/-- `sext_64` of an integer that fits (R6). -/
def sext64 (z : Int) : Acc := BitVec.ofInt 64 z

/-- `fdiv(a, b)` (R6): the floor of a/b for b > 0; a free value for b = 0 (log 5). -/
def fdiv (a b : Nat) : Nat := if b = 0 then Config.fdivByZero a else a / b

/-- `min(a, b)` of two u32 (R6). -/
def min32 (a b : Data) : Data := if a.toNat ≤ b.toNat then a else b

/-- `cfg[i]` by name (R6, R26). -/
def Cfg.get (c : Cfg) : CfgReg → Data
  | .kp => c.kp
  | .ki => c.ki
  | .kd => c.kd
  | .gainDen => c.gainDen
  | .maxSpeed => c.maxSpeed
  | .ppr => c.ppr
  | .gearRatio => c.gearRatio
  | .tickFreq => c.tickFreq
  | .actPeriod => c.actPeriod
  | .lowThreshold => c.lowThreshold

/-- `cfg[i] <- v` by name (R6, R26): all 32 bits, one register (R41, R43). -/
def Cfg.set (c : Cfg) (r : CfgReg) (v : Data) : Cfg :=
  match r with
  | .kp => { c with kp := v }
  | .ki => { c with ki := v }
  | .kd => { c with kd := v }
  | .gainDen => { c with gainDen := v }
  | .maxSpeed => { c with maxSpeed := v }
  | .ppr => { c with ppr := v }
  | .gearRatio => { c with gearRatio := v }
  | .tickFreq => { c with tickFreq := v }
  | .actPeriod => { c with actPeriod := v }
  | .lowThreshold => { c with lowThreshold := v }

end Sys2Proof.Machine
end

