-- ==== Sys2Proof/Machine/Flags.lean ====
section
/-! DEFINITION. Every flag computation of the spec: the STATUS view (R25), the causes of CFGERR (R109) with the scale
they depend on (R78), and the two flags WRAP sets (R65). "There are no condition codes" (10_state.md section 4). -/

namespace Sys2Proof.Machine

/-- MODE as its u2 number (R13). -/
def Mode.number : Mode → BitVec 2
  | .unconfigured => 0
  | .running => 1
  | .fault => 2

/-- The STATUS view (R25). -/
def status (b : Block) : Data :=
  zext32 b.mode.number ||| (flag32 b.ovfPend <<< 2) ||| (flag32 b.prevValid <<< 3)
    ||| (flag32 b.wrapOverrun <<< 4) ||| (zext32 b.cfgErr <<< 8)

/-- PPR × GEAR_RATIO, formed in Z, not truncated (R78, R109). -/
def divisor (c : Cfg) : Nat := c.ppr.toNat * c.gearRatio.toNat

/-- DERIVE_SCALE (R78), in Z; it may exceed 2^32 - 1. -/
def deriveScale (c : Cfg) : Nat := fdiv (c.tickFreq.toNat * Config.secPerMin) (divisor c)

/-- Cause bit 0, ZERO_PPR_GEAR (R109). -/
def zeroPprGear (c : Cfg) : Bool := divisor c == 0

/-- Cause bit 1, ZERO_GAIN_DEN (R109). -/
def zeroGainDen (c : Cfg) : Bool := c.gainDen == 0

/-- Cause bit 2, SCALE_RANGE (R109): evaluated only where the divisor is not 0. -/
def scaleRange (c : Cfg) : Bool := if divisor c = 0 then false else decide (deriveScale c > 0xFFFFFFFF)

/-- CHECK_CFG (R109): every failing cause; 0 means accepted. -/
def checkCfg (c : Cfg) : BitVec 3 :=
  (if zeroPprGear c then 0b001 else 0) ||| (if zeroGainDen c then 0b010 else 0)
    ||| (if scaleRange c then 0b100 else 0)

/-- The flags after a WRAP (R65): OVF_PEND set, WRAP_OVERRUN set where OVF_PEND was set. -/
def recordWrap (b : Block) : Block :=
  { b with ovfPend := true, wrapOverrun := b.wrapOverrun || b.ovfPend }

/-- Consume the pending wrap (R14, R66, R67): ROLLOVER + 1 modulo 2^16 and OVF_PEND cleared, together. -/
def consumeWrap (b : Block) : Block :=
  { b with rollover := uwrap 16 (b.rollover.toNat + 1), ovfPend := false }

end Sys2Proof.Machine
end

