-- ==== Sys2Proof/Machine/Ops.lean ====
section
/-! DEFINITION. The operations every meaning shares: the answer of an operation (R6, R54), the error response that
stands in the place of an exception (R120, R121, R129), the mode gate (R122, R123), the delivery on the ports (R37,
R102), reset (R140), idling (R12), and the views on the output ports (R37, R54). There is no memory (R40), no trap entry
and no return (R129, R130). -/

namespace Sys2Proof.Machine

/-- What one operation does: the block after it, its one response (R54), and whether cmp_strobe is pulsed (R102). -/
structure Answer where
  block : Block
  resp : Response
  strobe : Bool
deriving DecidableEq, Repr

/-- `respond(OK, data)` (R6): normal completion with the block as written. -/
def respondOk (b : Block) (data : Data) : Answer := ⟨b, ⟨.ok, data⟩, false⟩

/-- TAKING AN EXCEPTION on this hardware: `raise X(info)` is `respond(X, info)` (R120). "An error saves nothing ... and
transfers control nowhere" (R129): the block is what the caller passes, which for every code but CFG_ERROR is the block
before the operation (R121). There is no return from it (R130). -/
def raiseError (code : Code) (info : Data) (b : Block) : Answer := ⟨b, ⟨code, info⟩, false⟩

/-- The gate of WRAP, EDGE, OVFCHK, TICK and SETTGT (R123): NOT_RUNNING outside RUNNING mode. -/
def whenRunning (b : Block) (effect : Answer) : Answer :=
  if b.mode = .running then effect else raiseError .notRunning 0 b

/-- The gate of WRCFG and INIT (R123): CFG_LOCKED outside UNCONFIGURED mode. -/
def whenUnconfigured (b : Block) (effect : Answer) : Answer :=
  if b.mode = .unconfigured then effect else raiseError .cfgLocked 0 b

/-- All writes of one operation take effect together (R6, R44), with its response and its strobe on the ports (R37). -/
def deliver (a : Answer) (s : State) : Host.Outcome State Fault Refusal :=
  .next { s with block := a.block, resp := some a.resp, cmpStrobe := a.strobe }

/-- The answer to an illegal word (R58): ILLEGAL_OP, data 0, nothing changes, no strobe. -/
def answerIllegal (s : State) : Host.Outcome State Fault Refusal :=
  deliver (raiseError .illegalOp 0 s.block) s

/-- Between operations the block "is idle and holds its state" (R12; 60_exceptions.md section 10): no response and no
strobe on the ports (log 2). -/
def idle (s : State) : State := { s with resp := none, cmpStrobe := false }

/-- rst, asserted and released (R140, R141): the machine right after reset, whatever it was before; nothing keeps its
value (log 3). -/
def applyReset (_ : State) : State := State.reset

/-- What the block takes from its input pins in one step (R37, R140). -/
inductive Taken where
  /-- Nothing is offered. -/
  | nothing
  /-- A legal word. -/
  | instr (i : Instr)
  /-- A word the decoder refuses (R58). -/
  | illegal (why : Illegal)
  /-- rst, between operations or during one. -/
  | reset
deriving DecidableEq, Repr

/-- What the input pins ask for. Decoding comes first and reads no register (R53, R122); a word abandoned by rst leaves
no trace but the reset (R140). -/
def takeInput : PortInput → Taken
  | .idle => .nothing
  | .op w =>
    match decode w with
    | .ok i => .instr i
    | .error why => .illegal why
  | .rst => .reset
  | .abandoned _ => .reset

/-- A transfer happens once: the word is off the pins after it, and the environment presents its next one only when this
one has been answered (R37, R157). -/
def transferred (s : State) : State := { s with pins := .idle }

/-! ## The output ports (R37, R54) -/

/-- The number of a response code (R54). -/
def Code.number : Code → BitVec 4
  | .ok => 0
  | .illegalOp => 1
  | .notRunning => 2
  | .cfgLocked => 3
  | .cfgError => 4

/-- The 36-bit response word (R54). -/
def Response.word (r : Response) : RespWord := r.code.number ++ r.data

/-- `resp_valid`. -/
def State.respValid (s : State) : Bool := s.resp.isSome

/-- `resp_word`, while resp_valid is high. -/
def State.respWord (s : State) : Option RespWord := s.resp.map Response.word

/-- `cmp_out`: "always equal to CMP" (R37, R102). -/
def State.cmpOut (s : State) : Data := s.block.cmp

/-- `op_ready`: the block lowers it only between a transfer and its response and while rst is asserted (R37, R140), both
inside one step; between steps it is high (log 3). -/
def State.opReady (_ : State) : Bool := true

end Sys2Proof.Machine
end

