-- ==== Sys2Proof/Machine/HostConfig.lean ====
section
/-! DEFINITION. The host interface: GETSPD, GETDUTY, GETSTAT (R105 to R107), the ten WRCFG rows (R108), INIT (R110). -/

namespace Sys2Proof.Machine

/-- GETSPD (R105): accepted in every mode. -/
def execGetspd (s : State) : Host.Outcome State Fault Refusal :=
  deliver (respondOk s.block s.block.speed) s

/-- GETDUTY (R106): accepted in every mode. -/
def execGetduty (s : State) : Host.Outcome State Fault Refusal :=
  deliver (respondOk s.block (zext32 s.block.duty)) s

/-- GETSTAT (R107): accepted in every mode; clears nothing. -/
def execGetstat (s : State) : Host.Outcome State Fault Refusal :=
  deliver (respondOk s.block (status s.block)) s

/-- WRCFG i, v (R108): UNCONFIGURED mode only; no check at the write. -/
def writeCfg (r : CfgReg) (v : Data) (s : State) : Host.Outcome State Fault Refusal :=
  deliver (whenUnconfigured s.block (respondOk { s.block with cfg := s.block.cfg.set r v } 0)) s

/-- WRCFG KP, v (R27, R108). -/
def execWrcfgKp (v : Data) (s : State) : Host.Outcome State Fault Refusal := writeCfg .kp v s

/-- WRCFG KI, v (R28, R108). -/
def execWrcfgKi (v : Data) (s : State) : Host.Outcome State Fault Refusal := writeCfg .ki v s

/-- WRCFG KD, v (R29, R108). -/
def execWrcfgKd (v : Data) (s : State) : Host.Outcome State Fault Refusal := writeCfg .kd v s

/-- WRCFG GAIN_DEN, v (R30, R108). -/
def execWrcfgGainDen (v : Data) (s : State) : Host.Outcome State Fault Refusal := writeCfg .gainDen v s

/-- WRCFG MAX_SPEED, v (R31, R108). -/
def execWrcfgMaxSpeed (v : Data) (s : State) : Host.Outcome State Fault Refusal := writeCfg .maxSpeed v s

/-- WRCFG PPR, v (R32, R108). -/
def execWrcfgPpr (v : Data) (s : State) : Host.Outcome State Fault Refusal := writeCfg .ppr v s

/-- WRCFG GEAR_RATIO, v (R33, R108). -/
def execWrcfgGearRatio (v : Data) (s : State) : Host.Outcome State Fault Refusal := writeCfg .gearRatio v s

/-- WRCFG TICK_FREQ, v (R34, R108). -/
def execWrcfgTickFreq (v : Data) (s : State) : Host.Outcome State Fault Refusal := writeCfg .tickFreq v s

/-- WRCFG ACT_PERIOD, v (R35, R108). -/
def execWrcfgActPeriod (v : Data) (s : State) : Host.Outcome State Fault Refusal := writeCfg .actPeriod v s

/-- WRCFG LOW_THRESHOLD, v (R36, R108). -/
def execWrcfgLowThreshold (v : Data) (s : State) : Host.Outcome State Fault Refusal := writeCfg .lowThreshold v s

/-- The block after a successful INIT (R110): SCALE and MODE, and the twelve clears written out as the rule has them
(log 8). CFGERR and the configuration are not written. -/
def startBlock (b : Block) : Block :=
  { b with
    scale := BitVec.ofNat 32 (deriveScale b.cfg)
    ovfPend := false
    wrapOverrun := false
    prevValid := false
    rollover := 0
    prevTs := 0
    speed := 0
    target := 0
    err := 0
    prevErr := 0
    integ := 0
    duty := 0
    cmp := 0
    mode := .running }

/-- INIT's configuration check and its two outcomes (R110, R122): CFG_ERROR writes CFGERR and MODE only. -/
def initAnswer (b : Block) : Answer :=
  let c := checkCfg b.cfg
  if c ≠ 0 then raiseError .cfgError (zext32 c) { b with cfgErr := c, mode := .fault }
  else respondOk (startBlock b) (BitVec.ofNat 32 (deriveScale b.cfg))

/-- INIT (R110). -/
def execInit (s : State) : Host.Outcome State Fault Refusal :=
  deliver (whenUnconfigured s.block (initAnswer s.block)) s

end Sys2Proof.Machine
end

