-- ==== Sys2Proof/Machine/ActuatorMapper.lean ====
section
/-! DEFINITION. The Actuator Mapper: MAP_DUTY (R100). Its output port is `State.cmpOut` (R102). -/

namespace Sys2Proof.Machine

/-- MAP_DUTY(duty) (R100): the product first, exactly, then one division rounding down. A quotient that does not fit 32
bits needs a duty above 100, where R101 gives no value: a free value (log 7). -/
def mapDuty (c : Cfg) (duty : Duty) : Data :=
  if fdiv (duty.toNat * c.actPeriod.toNat) 100 < 2 ^ 32 then
    BitVec.ofNat 32 (fdiv (duty.toNat * c.actPeriod.toNat) 100)
  else Config.mapDutyBeyond duty c.actPeriod

end Sys2Proof.Machine
end

