-- ==== Sys2Proof/Machine/PidRegulator.lean ====
section
/-! DEFINITION. The PID Regulator: TICK (R85) with PID_STEP (R87 to R89), and SETTGT (R86). There is no step-target
substitution (R93). -/

namespace Sys2Proof.Machine

/-- `num` of R87, exact in Z: rawOutput is num / GAIN_DEN and is never formed. `i1` is the accumulator after this
step's addition, `pe` the previous error before it is overwritten. -/
def pidNum (c : Cfg) (e : Int) (i1 pe : Acc) : Int :=
  c.kp.toNat * e + c.ki.toNat * i1.toInt + c.kd.toNat * (e - pe.toInt)

/-- What PID_STEP returns (R87). -/
structure PidResult where
  e : Int
  integ : Acc
  duty : Duty
deriving DecidableEq, Repr

/-- PID_STEP(t, m, I, pe) (R87): both bounds strict (R88), the accumulator modulo 2^64 (R89). -/
def pidStep (c : Cfg) (t m : Data) (integ pe : Acc) : PidResult :=
  let e : Int := (t.toNat : Int) - m.toNat
  let i1 : Acc := swrap 64 (integ.toInt + e)
  let num : Int := pidNum c e i1 pe
  if num > (Config.dutyMax : Int) * c.gainDen.toNat then ⟨e, swrap 64 (i1.toInt - e), 100⟩
  else if num < 0 then ⟨e, swrap 64 (i1.toInt - e), 0⟩
  else ⟨e, i1, BitVec.ofNat 7 (fdiv num.toNat c.gainDen.toNat)⟩

/-- The block after a TICK whose control step gave `p` (R85). -/
def tickBlock (b : Block) (p : PidResult) : Block :=
  { b with
    err := sext64 p.e
    prevErr := sext64 p.e
    integ := p.integ
    duty := p.duty
    cmp := mapDuty b.cfg p.duty }

/-- The answer of an executed TICK (R85): the new CMP, and cmp_strobe pulsed once (R102). -/
def tickAnswer (b : Block) : Answer :=
  let p := pidStep b.cfg b.target b.speed b.integ b.prevErr
  { respondOk (tickBlock b p) (mapDuty b.cfg p.duty) with strobe := true }

/-- TICK (R85). -/
def execTick (s : State) : Host.Outcome State Fault Refusal :=
  deliver (whenRunning s.block (tickAnswer s.block)) s

/-- SETTGT v (R86): clamped to MAX_SPEED, and the stored value is the response. -/
def execSettgt (v : Data) (s : State) : Host.Outcome State Fault Refusal :=
  deliver (whenRunning s.block
    (respondOk { s.block with target := min32 v s.block.cfg.maxSpeed } (min32 v s.block.cfg.maxSpeed))) s

end Sys2Proof.Machine
end

