-- ==== Sys2Proof/Machine/TimeExtender.lean ====
section
/-! DEFINITION. The Time Extender: WRAP (R65), OVFCHK (R66), and the function EXTEND (R67) that EDGE calls. -/

namespace Sys2Proof.Machine

/-- WRAP (R65). -/
def execWrap (s : State) : Host.Outcome State Fault Refusal :=
  deliver (whenRunning s.block (respondOk (recordWrap s.block) 0)) s

/-- OVFCHK (R66). -/
def execOvfchk (s : State) : Host.Outcome State Fault Refusal :=
  deliver (whenRunning s.block
    (if s.block.ovfPend then respondOk (consumeWrap s.block) 1 else respondOk s.block 0)) s

/-- EXTEND's branch (a) is taken (R67): the flag is pending and the raw value is below LOW_THRESHOLD, unsigned, on all
32 bits (R36). -/
def edgeConsumes (b : Block) (raw : Raw) : Bool :=
  b.ovfPend && decide ((zext32 raw).toNat < b.cfg.lowThreshold.toNat)

/-- The block after EXTEND (R67). -/
def extendBlock (b : Block) (raw : Raw) : Block := if edgeConsumes b raw then consumeWrap b else b

/-- The wide timestamp EXTEND returns (R67), formed from the rollover count after the increment. -/
def extendTs (b : Block) (raw : Raw) : Data :=
  (zext32 (extendBlock b raw).rollover <<< 16) ||| zext32 raw

end Sys2Proof.Machine
end

