-- ==== Sys2Proof/Machine/RpmEstimator.lean ====
section
/-! DEFINITION. The RPM Estimator: EDGE (R75) with DURATION (R76) and RPM_UPDATE (R77). DERIVE_SCALE (R78) is in
Flags.lean, beside the check that reads it. -/

namespace Sys2Proof.Machine

/-- DURATION(ts) (R76): 0 before any previous sample, else the difference modulo 2^32. -/
def duration (b : Block) (ts : Data) : Data :=
  if b.prevValid then uwrap 32 ((ts.toNat : Int) - b.prevTs.toNat) else 0

/-- RPM_UPDATE(d) (R77): the new SPEED; kept where d = 0. -/
def rpmUpdate (b : Block) (d : Data) : Data :=
  if d = 0 then b.speed else BitVec.ofNat 32 (fdiv b.scale.toNat d.toNat)

/-- The block after an EDGE in RUNNING mode (R75). DURATION and RPM_UPDATE read registers EXTEND does not write. -/
def edgeBlock (b : Block) (raw : Raw) : Block :=
  { extendBlock b raw with
    prevTs := extendTs b raw
    prevValid := true
    speed := rpmUpdate b (duration b (extendTs b raw)) }

/-- EDGE raw (R75). -/
def execEdge (raw : Raw) (s : State) : Host.Outcome State Fault Refusal :=
  deliver (whenRunning s.block (respondOk (edgeBlock s.block raw) (extendTs s.block raw))) s

end Sys2Proof.Machine
end

