-- ==== Sys2Proof/Machine/Dispatch.lean ====
section
/-! DEFINITION. One arm for each operation; every one has its meaning. -/

namespace Sys2Proof.Machine

def exec (i : Instr) (s : State) : Host.Outcome State Fault Refusal :=
  match i with
  | .wrap => Sys2Proof.Machine.execWrap s
  | .edge raw => Sys2Proof.Machine.execEdge raw s
  | .ovfchk => Sys2Proof.Machine.execOvfchk s
  | .tick => Sys2Proof.Machine.execTick s
  | .settgt v => Sys2Proof.Machine.execSettgt v s
  | .getspd => Sys2Proof.Machine.execGetspd s
  | .getduty => Sys2Proof.Machine.execGetduty s
  | .getstat => Sys2Proof.Machine.execGetstat s
  | .wrcfgKp v => Sys2Proof.Machine.execWrcfgKp v s
  | .wrcfgKi v => Sys2Proof.Machine.execWrcfgKi v s
  | .wrcfgKd v => Sys2Proof.Machine.execWrcfgKd v s
  | .wrcfgGainDen v => Sys2Proof.Machine.execWrcfgGainDen v s
  | .wrcfgMaxSpeed v => Sys2Proof.Machine.execWrcfgMaxSpeed v s
  | .wrcfgPpr v => Sys2Proof.Machine.execWrcfgPpr v s
  | .wrcfgGearRatio v => Sys2Proof.Machine.execWrcfgGearRatio v s
  | .wrcfgTickFreq v => Sys2Proof.Machine.execWrcfgTickFreq v s
  | .wrcfgActPeriod v => Sys2Proof.Machine.execWrcfgActPeriod v s
  | .wrcfgLowThreshold v => Sys2Proof.Machine.execWrcfgLowThreshold v s
  | .init => Sys2Proof.Machine.execInit s

end Sys2Proof.Machine
end

