-- ==== Sys2Proof/Machine/Step.lean ====
section
/-! DEFINITION. One step: take what stands on the input pins (R37) and do what it asks. There is no program counter, no
fetch and no stored program (R11, R12); before each step the environment sets the pins (log 1). -/

namespace Sys2Proof.Machine

/-- One operation, executed whole and answered (R37, R44, R157); or a reset (R140); or an idle step (R12). -/
def step (s : State) : Host.Outcome State Fault Refusal :=
  match takeInput s.pins with
  | .nothing => .next (idle s)
  | .instr i => exec i (transferred s)
  | .illegal _ => answerIllegal (transferred s)
  | .reset => .next (applyReset s)

/-- `s` with a word, numbered as spec/opcode_table.json numbers it, on its input pins: the next step runs it. This stands
for the environment's presenting an operation (log 9). -/
def State.withFetchWord (s : State) (nbits w : Nat) : State :=
  { s with pins := .op (BitVec.ofNat 40 (w % 2 ^ nbits)) }

end Sys2Proof.Machine
end

