-- ==== Sys2Proof/Machine/Assembler.lean ====
section
/-! DEFINITION. The text form of operations and the pseudo-operations (R59, R60): a line of text to an assembler
operation, and an assembler operation to the port events it stands for. A text is a list of characters. The block
itself takes words only; nothing here is reached by a step. What R59 leaves open of the text (blanks, the case of
hexadecimal digits) is in log 15. -/

namespace Sys2Proof.Machine

/-- The operands of SETUP, in its order (R60). -/
structure Setup where
  kp : Nat
  ki : Nat
  kd : Nat
  gainDen : Nat
  maxSpeed : Nat
  ppr : Nat
  gearRatio : Nat
  tickFreq : Nat
  actPeriod : Nat
  lowThreshold : Nat
deriving DecidableEq, Repr

/-- One line of R59's table, or a pseudo-operation of R60; operands as written, not yet checked. -/
inductive AsmOp where
  | wrap
  | edge (raw : Nat)
  | ovfchk
  | tick
  | settgt (v : Nat)
  | getspd
  | getduty
  | getstat
  | wrcfg (i v : Nat)
  | init
  /-- `.word 0x...`: "the only way to write an illegal word". -/
  | word (w : Nat)
  | setup (p : Setup)
  /-- RESET: asserting rst; no word and no response. -/
  | reset
deriving DecidableEq, Repr

/-- A u32 operand: "An assembler refuses an operand out of range; it does not truncate" (R59). -/
def operand32 (v : Nat) : Option Data := if v < 2 ^ 32 then some (BitVec.ofNat 32 v) else none

/-- `WRCFG i, v` with a numeric index 0 to 9 (R59). -/
def asmWrcfg (i v : Nat) : Option PortInput :=
  match operand32 v with
  | none => none
  | some d =>
    match i with
    | 0 => some (.op (encode (.wrcfgKp d)))
    | 1 => some (.op (encode (.wrcfgKi d)))
    | 2 => some (.op (encode (.wrcfgKd d)))
    | 3 => some (.op (encode (.wrcfgGainDen d)))
    | 4 => some (.op (encode (.wrcfgMaxSpeed d)))
    | 5 => some (.op (encode (.wrcfgPpr d)))
    | 6 => some (.op (encode (.wrcfgGearRatio d)))
    | 7 => some (.op (encode (.wrcfgTickFreq d)))
    | 8 => some (.op (encode (.wrcfgActPeriod d)))
    | 9 => some (.op (encode (.wrcfgLowThreshold d)))
    | _ => none

/-- All of a list, or nothing. -/
def allOrNone : List (Option PortInput) → Option (List PortInput)
  | [] => some []
  | none :: _ => none
  | some x :: rest =>
    match allOrNone rest with
    | none => none
    | some xs => some (x :: xs)

/-- SETUP's eleven operations, in order (R60). -/
def asmSetup (p : Setup) : Option (List PortInput) :=
  allOrNone [asmWrcfg 0 p.kp, asmWrcfg 1 p.ki, asmWrcfg 2 p.kd, asmWrcfg 3 p.gainDen, asmWrcfg 4 p.maxSpeed,
    asmWrcfg 5 p.ppr, asmWrcfg 6 p.gearRatio, asmWrcfg 7 p.tickFreq, asmWrcfg 8 p.actPeriod,
    asmWrcfg 9 p.lowThreshold, some (.op (encode .init))]

/-- The port events an assembler operation stands for; none where an operand is out of range (R59, R60). -/
def assemble : AsmOp → Option (List PortInput)
  | .wrap => some [.op (encode .wrap)]
  | .edge raw => if raw ≤ 0xFFFF then some [.op (encode (.edge (BitVec.ofNat 16 raw)))] else none
  | .ovfchk => some [.op (encode .ovfchk)]
  | .tick => some [.op (encode .tick)]
  | .settgt v =>
    match operand32 v with
    | none => none
    | some d => some [.op (encode (.settgt d))]
  | .getspd => some [.op (encode .getspd)]
  | .getduty => some [.op (encode .getduty)]
  | .getstat => some [.op (encode .getstat)]
  | .wrcfg i v => allOrNone [asmWrcfg i v]
  | .init => some [.op (encode .init)]
  | .word w => if w < 2 ^ 40 then some [.op (BitVec.ofNat 40 w)] else none
  | .setup p => asmSetup p
  | .reset => some [.rst]

/-! ## Text (R59) -/

def isBlank (c : Char) : Bool := c == ' ' || c == '\t'

def dropBlanks : List Char → List Char
  | [] => []
  | c :: cs => if isBlank c then dropBlanks cs else c :: cs

def trim (cs : List Char) : List Char := (dropBlanks (dropBlanks cs).reverse).reverse

/-- `#` starts a comment to the end of the line. -/
def dropComment : List Char → List Char
  | [] => []
  | c :: cs => if c == '#' then [] else c :: dropComment cs

/-- The characters up to the first blank, and the rest. -/
def splitWord : List Char → List Char × List Char
  | [] => ([], [])
  | c :: cs => if isBlank c then ([], cs) else ((c :: (splitWord cs).1), (splitWord cs).2)

/-- The parts between commas. -/
def splitCommas : List Char → List (List Char)
  | [] => [[]]
  | c :: cs =>
    if c == ',' then [] :: splitCommas cs
    else
      match splitCommas cs with
      | [] => [[c]]
      | part :: parts => (c :: part) :: parts

/-- The value of a digit in base 10 or 16. -/
def digitValue (base : Nat) (c : Char) : Option Nat :=
  if 48 ≤ c.toNat && c.toNat ≤ 57 then some (c.toNat - 48)
  else if base == 16 && 65 ≤ c.toNat && c.toNat ≤ 70 then some (c.toNat - 55)
  else if base == 16 && 97 ≤ c.toNat && c.toNat ≤ 102 then some (c.toNat - 87)
  else none

/-- Digits after the value read so far. -/
def readDigits (base acc : Nat) : List Char → Option Nat
  | [] => some acc
  | c :: cs =>
    match digitValue base c with
    | none => none
    | some d => readDigits base (acc * base + d) cs

/-- A number in decimal or `0x` hexadecimal, at least one digit. -/
def readNumber : List Char → Option Nat
  | [] => none
  | '0' :: 'x' :: [] => none
  | '0' :: 'x' :: cs => readDigits 16 0 cs
  | cs => readDigits 10 0 cs

/-- The numbers between commas. -/
def readNumbers : List (List Char) → Option (List Nat)
  | [] => some []
  | p :: ps =>
    match readNumber (trim p), readNumbers ps with
    | some n, some ns => some (n :: ns)
    | _, _ => none

/-- A configuration register by its name in R26, or by its index. -/
def readCfgName (cs : List Char) : Option Nat :=
  if cs = ['K', 'P'] then some 0
  else if cs = ['K', 'I'] then some 1
  else if cs = ['K', 'D'] then some 2
  else if cs = ['G', 'A', 'I', 'N', '_', 'D', 'E', 'N'] then some 3
  else if cs = ['M', 'A', 'X', '_', 'S', 'P', 'E', 'E', 'D'] then some 4
  else if cs = ['P', 'P', 'R'] then some 5
  else if cs = ['G', 'E', 'A', 'R', '_', 'R', 'A', 'T', 'I', 'O'] then some 6
  else if cs = ['T', 'I', 'C', 'K', '_', 'F', 'R', 'E', 'Q'] then some 7
  else if cs = ['A', 'C', 'T', '_', 'P', 'E', 'R', 'I', 'O', 'D'] then some 8
  else if cs = ['L', 'O', 'W', '_', 'T', 'H', 'R', 'E', 'S', 'H', 'O', 'L', 'D'] then some 9
  else readNumber cs

/-- A mnemonic without operands. -/
def readPlain (m : List Char) : Option AsmOp :=
  if m = ['W', 'R', 'A', 'P'] then some .wrap
  else if m = ['O', 'V', 'F', 'C', 'H', 'K'] then some .ovfchk
  else if m = ['T', 'I', 'C', 'K'] then some .tick
  else if m = ['G', 'E', 'T', 'S', 'P', 'D'] then some .getspd
  else if m = ['G', 'E', 'T', 'D', 'U', 'T', 'Y'] then some .getduty
  else if m = ['G', 'E', 'T', 'S', 'T', 'A', 'T'] then some .getstat
  else if m = ['I', 'N', 'I', 'T'] then some .init
  else if m = ['R', 'E', 'S', 'E', 'T'] then some .reset
  else none

/-- A mnemonic with operands, the parts between commas. -/
def readWithOperands (m : List Char) (parts : List (List Char)) : Option AsmOp :=
  if m = ['W', 'R', 'C', 'F', 'G'] then
    match parts with
    | [name, v] =>
      match readCfgName (trim name), readNumber (trim v) with
      | some i, some n => some (.wrcfg i n)
      | _, _ => none
    | _ => none
  else
    match readNumbers parts with
    | some [n] =>
      if m = ['E', 'D', 'G', 'E'] then some (.edge n)
      else if m = ['S', 'E', 'T', 'T', 'G', 'T'] then some (.settgt n)
      else if m = ['.', 'w', 'o', 'r', 'd'] then some (.word n)
      else none
    | some [a, b, c, d, e, f, g, h, i, j] =>
      if m = ['S', 'E', 'T', 'U', 'P'] then some (.setup ⟨a, b, c, d, e, f, g, h, i, j⟩) else none
    | _ => none

/-- One line: nothing (blank or comment only), or one assembler operation; none where it is neither. -/
def readLine (line : List Char) : Option (List AsmOp) :=
  match trim (dropComment line) with
  | [] => some []
  | cs =>
    match (if trim (splitWord cs).2 = [] then readPlain (splitWord cs).1
      else readWithOperands (splitWord cs).1 (splitCommas (splitWord cs).2)) with
    | some op => some [op]
    | none => none

end Sys2Proof.Machine
end

