-- ==== Sys2Proof/WellFormed.lean ====
section
/-! DEFINITION. Well-formedness. A term of `Instr` is well formed by its types (R51; log 14); what can be ill formed is
a WORD handed to the port (R56, R58). Each condition of R58 is a check of its own, written from the rule's text and
not from the decoder. -/

namespace Sys2Proof

/-- `op` is one of the ten assigned opcodes 0x1 to 0xA (R52, R58). -/
def opcodeAssigned (w : OpWord) : Bool := 1 ≤ (opField w).toNat && (opField w).toNat ≤ 10

/-- A WRCFG names one of the ten configuration registers (R41, R58). -/
def cfgIndexLegal (w : OpWord) : Bool := opField w != 9 || (idxField w).toNat ≤ 9

/-- "idx must be 0 in every operation but WRCFG" (R56). -/
def idxLegal (w : OpWord) : Bool := opField w == 9 || idxField w == 0

/-- "data must be 0 in WRAP, OVFCHK, TICK, GETSPD, GETDUTY, GETSTAT and INIT" (R56). -/
def dataLegal (w : OpWord) : Bool := opField w == 2 || opField w == 5 || opField w == 9 || dataField w == 0

/-- "data[31:16] must be 0 in EDGE" (R56). -/
def edgeLegal (w : OpWord) : Bool := opField w != 2 || highField w == 0

/-- A legal word: none of the conditions of R58 makes it illegal. -/
def OpWord.legal (w : OpWord) : Bool :=
  opcodeAssigned w && cfgIndexLegal w && idxLegal w && dataLegal w && edgeLegal w

end Sys2Proof
end

