-- ==== Sys2Proof/Safety.lean ====
section
/-! DEFINITION. What a safe run is, in the terms the claims use: the invariant of the block, runs over a sequence of
operation words with the observable trace of R37, the counts of R68, and the obligations O1 to O4 of the environment
(R145, R148, R149, R151, R152) as premises on the sequence it issues. -/

namespace Sys2Proof.Machine

/-! ## The invariant -/

/-- What every reachable state of the block satisfies. -/
structure Block.Inv (b : Block) : Prop where
  /-- R17: CFGERR is "0 in every other mode than FAULT". -/
  cfgErrClear : b.mode ≠ .fault → b.cfgErr = 0
  /-- R107, R110: in FAULT mode CFGERR holds the causes the rejected configuration has, and there is one. -/
  cfgErrCauses : b.mode = .fault → b.cfgErr = checkCfg b.cfg ∧ b.cfgErr ≠ 0
  /-- R123: outside RUNNING mode every register and flag other than MODE, CFGERR and the configuration is at reset. -/
  atReset : b.mode ≠ .running → b = { Block.reset with mode := b.mode, cfgErr := b.cfgErr, cfg := b.cfg }
  /-- R111. -/
  gainDenNotZero : b.mode = .running → b.cfg.gainDen ≠ 0
  /-- R111. -/
  divisorNotZero : b.mode = .running → b.cfg.ppr.toNat * b.cfg.gearRatio.toNat ≠ 0
  /-- R111: SCALE = fdiv(TICK_FREQ × 60, PPR × GEAR_RATIO). -/
  scaleDerived : b.mode = .running →
    b.scale.toNat = b.cfg.tickFreq.toNat * 60 / (b.cfg.ppr.toNat * b.cfg.gearRatio.toNat)
  /-- R79 (c). -/
  speedBound : b.speed.toNat ≤ b.scale.toNat
  /-- R22. -/
  targetBound : b.target.toNat ≤ b.cfg.maxSpeed.toNat
  /-- R23. -/
  errSame : b.err = b.prevErr
  /-- R23. -/
  errRange : -(2 ^ 32 - 1) ≤ b.prevErr.toInt ∧ b.prevErr.toInt ≤ 2 ^ 32 - 1
  /-- R24. -/
  dutyBound : b.duty.toNat ≤ 100
  /-- R24, R100: CMP is the mapping of DUTY. -/
  cmpMapped : b.cmp.toNat = b.duty.toNat * b.cfg.actPeriod.toNat / 100
  /-- R16: without a previous EDGE nothing is stored and no speed is computed. -/
  noEdgeYet : b.prevValid = false → b.prevTs = 0 ∧ b.speed = 0

/-! ## Classes of operations (R123) -/

/-- The five operations of R123 that only RUNNING mode accepts. -/
def needsRunning : Instr → Bool
  | .wrap | .edge _ | .ovfchk | .tick | .settgt _ => true
  | .getspd | .getduty | .getstat => false
  | .wrcfgKp _ | .wrcfgKi _ | .wrcfgKd _ | .wrcfgGainDen _ | .wrcfgMaxSpeed _ => false
  | .wrcfgPpr _ | .wrcfgGearRatio _ | .wrcfgTickFreq _ | .wrcfgActPeriod _ | .wrcfgLowThreshold _ => false
  | .init => false

/-- The three read operations (R45, R123). -/
def isRead : Instr → Bool
  | .wrap | .edge _ | .ovfchk | .tick | .settgt _ => false
  | .getspd | .getduty | .getstat => true
  | .wrcfgKp _ | .wrcfgKi _ | .wrcfgKd _ | .wrcfgGainDen _ | .wrcfgMaxSpeed _ => false
  | .wrcfgPpr _ | .wrcfgGearRatio _ | .wrcfgTickFreq _ | .wrcfgActPeriod _ | .wrcfgLowThreshold _ => false
  | .init => false

/-- The ten rows of WRCFG (R52). -/
def isWrcfg : Instr → Bool
  | .wrap | .edge _ | .ovfchk | .tick | .settgt _ => false
  | .getspd | .getduty | .getstat => false
  | .wrcfgKp _ | .wrcfgKi _ | .wrcfgKd _ | .wrcfgGainDen _ | .wrcfgMaxSpeed _ => true
  | .wrcfgPpr _ | .wrcfgGearRatio _ | .wrcfgTickFreq _ | .wrcfgActPeriod _ | .wrcfgLowThreshold _ => true
  | .init => false

/-- The EDGE operation with any operand. -/
def isEdge (i : Instr) : Prop := ∃ raw, i = .edge raw

/-- The SETTGT operation with any operand. -/
def isSettgt (i : Instr) : Prop := ∃ v, i = .settgt v

/-- The response of an operation that is not accepted in the mode (R123): the code, with data 0 and nothing changed. -/
def refusedWith (code : Code) (s : State) : State := { s with resp := some ⟨code, 0⟩, cmpStrobe := false }

/-! ## Runs over a sequence of operation words -/

/-- The state after the environment has put one word on the pins and the machine has made one step. -/
def afterWord (s : State) (w : OpWord) : State :=
  match step { s with pins := .op w } with
  | .next t => t
  | .fault _ => s
  | .refused _ => s

/-- The state after a sequence of words, given one after another (R46, R136). -/
def afterWords (s : State) : List OpWord → State
  | [] => s
  | w :: ws => afterWords (afterWord s w) ws

/-- One entry of the observable trace (R37): the word, its response word, cmp_out after it, and whether cmp_strobe was
pulsed. -/
structure Transaction where
  word : OpWord
  respWord : Option RespWord
  cmpOut : Data
  strobe : Bool
deriving DecidableEq, Repr

/-- The observable trace of a sequence of words (R37, R136). -/
def trace (s : State) : List OpWord → List Transaction
  | [] => []
  | w :: ws =>
    ⟨w, (afterWord s w).respWord, (afterWord s w).cmpOut, (afterWord s w).cmpStrobe⟩ :: trace (afterWord s w) ws

/-- The nW of R68: how many words of a sequence are WRAPs executed in RUNNING mode. -/
def countWraps (s : State) : List OpWord → Nat
  | [] => 0
  | w :: ws =>
    (if decode w = .ok .wrap ∧ s.block.mode = .running then 1 else 0) + countWraps (afterWord s w) ws

/-- How many words of a sequence change ROLLOVER: the number of its increments (R68). -/
def countIncrements (s : State) : List OpWord → Nat
  | [] => 0
  | w :: ws =>
    (if (afterWord s w).block.rollover = s.block.rollover then 0 else 1) + countIncrements (afterWord s w) ws

/-- The machine driven by its environment: before each step the environment sets the input pins (R12, R37, R134). The
sequence is an argument of the run, not state (R11(e)). -/
def drive (s : State) : List PortInput → Host.Outcome State Fault Refusal
  | [] => .next s
  | e :: es =>
    match step { s with pins := e } with
    | .next t => drive t es
    | .fault r => .fault r
    | .refused r => .refused r

/-- A safe run: every step of the driven machine is a next state. -/
def RunsFor (es : List PortInput) (s : State) : Prop := ∃ t, drive s es = .next t

/-! ## The environment's obligations (R145 to R152)

An environment history is the sequence of operations issued since INIT, each EDGE with the true time τ of its capture,
counted as in R145. -/

inductive EnvEvent where
  /-- The WRAP operation; the k-th of the history reports wrap k (R145, R148 (b)). -/
  | wrap
  | ovfchk
  /-- The EDGE operation for a capture at true time τ; its operand is τ mod 2^16. -/
  | edge (τ : Nat)
  /-- Any other word, legal or not. -/
  | other (w : OpWord)
deriving DecidableEq, Repr

/-- raw_j = τ_j mod 2^16 (R145). -/
def rawAt (τ : Nat) : Raw := BitVec.ofNat 16 (τ % 2 ^ 16)

/-- K(τ) = fdiv(τ, 2^16) (R145): physical wraps up to and including τ. -/
def wrapsAt (τ : Nat) : Nat := τ / 2 ^ 16

/-- The word an event puts on the port. -/
def EnvEvent.word : EnvEvent → OpWord
  | .wrap => encode .wrap
  | .ovfchk => encode .ovfchk
  | .edge τ => encode (.edge (rawAt τ))
  | .other w => w

/-- An `other` event is not one of the three time operations. -/
def EnvEvent.proper : EnvEvent → Prop
  | .other w => decode w ≠ .ok .wrap ∧ decode w ≠ .ok .ovfchk ∧ ∀ raw, decode w ≠ .ok (.edge raw)
  | _ => True

/-- The number of WRAPs in a history. -/
def wrapsIn : List EnvEvent → Nat
  | [] => 0
  | .wrap :: es => wrapsIn es + 1
  | _ :: es => wrapsIn es

/-- The operation consumes a pending wrap: an OVFCHK, or an EDGE with raw below the threshold (R149). -/
def EnvEvent.consumes (thr : Data) : EnvEvent → Prop
  | .ovfchk => True
  | .edge τ => (rawAt τ).toNat < thr.toNat
  | _ => False

/-- A wrap is pending after the history: its last WRAP has been followed by no consuming operation (R149, R152). -/
def WrapPending (thr : Data) (es : List EnvEvent) : Prop :=
  ∃ p q, es = p ++ .wrap :: q ∧ .wrap ∉ q ∧ ∀ e ∈ q, ¬ e.consumes thr

/-- O1 (R148): (a) captures in order; (c) every wrap at or before a capture is reported before it; (d) at most one later
wrap is. (b) is the numbering of the WRAPs. -/
def ObligationO1 (es : List EnvEvent) : Prop :=
  ∀ p τ q, es = p ++ .edge τ :: q →
    (∀ τ', .edge τ' ∈ p → τ' ≤ τ) ∧ wrapsAt τ ≤ wrapsIn p ∧ wrapsIn p ≤ wrapsAt τ + 1

/-- O2 (R149): between any two consecutive WRAPs an operation consumes the pending wrap. -/
def ObligationO2 (thr : Data) (es : List EnvEvent) : Prop :=
  ∀ p q r, es = p ++ .wrap :: (q ++ .wrap :: r) → .wrap ∉ q → ∃ e ∈ q, e.consumes thr

/-- O3 (R151): no OVFCHK between WRAP k and EDGE j where k × 2^16 > τ_j and WRAP k is before EDGE j. -/
def ObligationO3 (es : List EnvEvent) : Prop :=
  ∀ p q τ r, es = p ++ .wrap :: (q ++ .edge τ :: r) → (wrapsIn p + 1) * 2 ^ 16 > τ → .ovfchk ∉ q

/-- O4 (R152): (a) an EDGE executed while the pending wrap happened at or before its capture has raw < THR; (b) while it
happened after it, raw ≥ THR. The pending wrap is the last one reported. -/
def ObligationO4 (thr : Data) (es : List EnvEvent) : Prop :=
  ∀ p τ q, es = p ++ .edge τ :: q → WrapPending thr p →
    (wrapsIn p ≤ wrapsAt τ → (rawAt τ).toNat < thr.toNat) ∧
    (wrapsAt τ < wrapsIn p → thr.toNat ≤ (rawAt τ).toNat)

end Sys2Proof.Machine
end

