-- ==== Sys2Proof/Certificates/Slice0/Obligations.lean ====
section
/-! DEFINITION. The statements about the model, each `def Obligations.<Name> : Prop`. A post-state is written out in
full wherever a rule gives it, so the statement is the instruction's result, its completion and its frame at once. -/

open Sys2Proof Sys2Proof.Machine

/-! ## Encoding -/

/-- R61, the worked encodings: operation words both ways, response words, and four illegal words. -/
def Obligations.WorkedEncodings : Prop :=
  (encode (.edge 0xFFF0) = 0x200000FFF0 ∧ decode 0x200000FFF0 = .ok (.edge 0xFFF0)) ∧
  (encode (.settgt 30) = 0x500000001E ∧ decode 0x500000001E = .ok (.settgt 30)) ∧
  (encode (.wrcfgTickFreq 1000000) = 0x97000F4240 ∧ decode 0x97000F4240 = .ok (.wrcfgTickFreq 1000000)) ∧
  (encode (.wrcfgLowThreshold 0x8000) = 0x9900008000 ∧ decode 0x9900008000 = .ok (.wrcfgLowThreshold 0x8000)) ∧
  (encode .init = 0xA000000000 ∧ decode 0xA000000000 = .ok .init) ∧
  Response.word ⟨.ok, 63⟩ = 0x00000003F ∧
  Response.word ⟨.cfgError, 3⟩ = 0x400000003 ∧
  Response.word ⟨.notRunning, 0⟩ = 0x200000000 ∧
  (∃ why, decode 0x2000010000 = .error why) ∧
  (∃ why, decode 0x9A00000000 = .error why) ∧
  (∃ why, decode 0x1000000001 = .error why) ∧
  (∃ why, decode 0x6100000000 = .error why)

/-- R51, R52: decoding what the encoder writes gives every operation back, with every operand at every value. -/
def Obligations.DecodeOfEncode : Prop :=
  ∀ i : Instr, decode (encode i) = .ok i

/-- R53: "there is at most one": a legal word is the encoding of the operation it decodes to, so no bit of it is ignored
(R56). -/
def Obligations.EncodeOfDecode : Prop :=
  ∀ (w : OpWord) (i : Instr), decode w = .ok i → encode i = w

/-- R52: the rows are mutually exclusive; a legal word selects the row of its operation; an illegal word selects none. -/
def Obligations.OpcodeMapAgreesWithDecoder : Prop :=
  ∀ w : OpWord,
    (∀ r₁ ∈ opcodeRows, ∀ r₂ ∈ opcodeRows, r₁.selects w = true → r₂.selects w = true → r₁ = r₂) ∧
    (∀ i, decode w = .ok i → rowOf i ∈ opcodeRows ∧ (rowOf i).selects w = true) ∧
    (∀ why, decode w = .error why → ∀ r ∈ opcodeRows, r.selects w = false)

/-- R56, R58: which words are illegal, in numbers: op = w / 2^36, idx = w / 2^32 mod 16, data = w mod 2^32. -/
def Obligations.IllegalWordsAreThose : Prop :=
  ∀ w : OpWord,
    ((∃ why, decode w = .error why) ↔
      (w.toNat / 2 ^ 36 = 0 ∨ 11 ≤ w.toNat / 2 ^ 36) ∨
      (w.toNat / 2 ^ 36 = 9 ∧ 10 ≤ w.toNat / 2 ^ 32 % 16) ∨
      (w.toNat / 2 ^ 36 ≠ 9 ∧ w.toNat / 2 ^ 32 % 16 ≠ 0) ∨
      (w.toNat / 2 ^ 36 ≠ 2 ∧ w.toNat / 2 ^ 36 ≠ 5 ∧ w.toNat / 2 ^ 36 ≠ 9 ∧ w.toNat % 2 ^ 32 ≠ 0) ∨
      (w.toNat / 2 ^ 36 = 2 ∧ w.toNat / 2 ^ 16 % 2 ^ 16 ≠ 0)) ∧
    ((∃ i, decode w = .ok i) ↔ OpWord.legal w = true)

/-- R58: "Number of legal words: 7 (the operand-less operations) + 2^16 (EDGE) + 2^32 (SETTGT) + 10 × 2^32 (WRCFG)". -/
def Obligations.LegalWordCount : Prop :=
  Nat.card { w : OpWord // ∃ i, decode w = .ok i } = 7 + 2 ^ 16 + 2 ^ 32 + 10 * 2 ^ 32

/-- R54: the response word's two fields and the five codes, and no two responses share a word. -/
def Obligations.ResponseWordFields : Prop :=
  (∀ r : Response, r.word.toNat / 2 ^ 32 = r.code.number.toNat ∧ r.word.toNat % 2 ^ 32 = r.data.toNat) ∧
  (Code.number .ok = 0 ∧ Code.number .illegalOp = 1 ∧ Code.number .notRunning = 2 ∧ Code.number .cfgLocked = 3 ∧
    Code.number .cfgError = 4) ∧
  (∀ r₁ r₂ : Response, r₁.word = r₂.word → r₁ = r₂)

/-! ## The step -/

/-- R37, R53: a step on a legal word is the meaning of the operation it decodes to, at the state whose pins the word has
left (R157: a transfer happens once). -/
def Obligations.StepRunsDecodedOperation : Prop :=
  ∀ (s : State) (w : OpWord) (i : Instr),
    s.pins = .op w → decode w = .ok i → step s = exec i { s with pins := .idle }

/-- R58, R122: an illegal word, in every mode, is answered ILLEGAL_OP with data 0 and changes no register and no output. -/
def Obligations.IllegalWordIsAnswered : Prop :=
  ∀ (s : State) (w : OpWord) (why : Illegal),
    s.pins = .op w → decode w = .error why →
    step s = .next { s with pins := .idle, resp := some ⟨.illegalOp, 0⟩, cmpStrobe := false }

/-- R158, R37: every word transferred is answered by exactly one response, in one step; it is then off the pins. -/
def Obligations.EveryWordIsAnswered : Prop :=
  ∀ (s : State) (w : OpWord), s.pins = .op w →
    ∃ (t : State) (r : Response), step s = .next t ∧ t.resp = some r ∧ t.respValid = true ∧
      t.respWord = some r.word ∧ t.pins = .idle ∧ t.opReady = true

/-- R121: the three refusals change no register and no output and pulse no strobe; CFG_ERROR changes CFGERR and MODE
only; after every response the block is ready. -/
def Obligations.ErrorsChangeNothing : Prop :=
  ∀ (s t : State) (w : OpWord) (r : Response),
    s.pins = .op w → step s = .next t → t.resp = some r →
    ((r.code = .illegalOp ∨ r.code = .notRunning ∨ r.code = .cfgLocked) →
      t.block = s.block ∧ t.cmpOut = s.cmpOut ∧ t.cmpStrobe = false ∧ r.data = 0) ∧
    (r.code = .cfgError →
      t.block = { s.block with cfgErr := t.block.cfgErr, mode := .fault } ∧ t.cmpStrobe = false) ∧
    t.opReady = true

/-- R12 (with log 2): with nothing offered the block is idle: every register holds, no response, no strobe. -/
def Obligations.IdleHoldsTheState : Prop :=
  ∀ s : State, s.pins = .idle → step s = .next { s with resp := none, cmpStrobe := false }

/-- R140 (with log 3): rst, between operations or during one, puts the machine at the reset values, with no response and
no strobe. -/
def Obligations.ResetFromEveryState : Prop :=
  ∀ (s : State) (w : OpWord), (s.pins = .rst ∨ s.pins = .abandoned w) →
    step s = .next { block := Block.reset, resp := none, cmpStrobe := false, pins := .idle }

/-- R141: the reset values, the STATUS view and the outputs at reset; an INIT without WRCFG fails with causes
ZERO_PPR_GEAR and ZERO_GAIN_DEN; nothing keeps its value across a reset. -/
def Obligations.ResetValues : Prop :=
  State.reset.block =
    { mode := .unconfigured, ovfPend := false, wrapOverrun := false, prevValid := false, cfgErr := 0#3,
      rollover := 0#16, prevTs := 0#32, scale := 0#32, speed := 0#32, target := 0#32, err := 0#64, prevErr := 0#64,
      integ := 0#64, duty := 0#7, cmp := 0#32,
      cfg := { kp := 0#32, ki := 0#32, kd := 0#32, gainDen := 0#32, maxSpeed := 0#32, ppr := 0#32,
               gearRatio := 0#32, tickFreq := 0#32, actPeriod := 0#32, lowThreshold := 0#32 } } ∧
  status State.reset.block = 0 ∧ State.reset.cmpOut = 0 ∧ State.reset.opReady = true ∧
  State.reset.respValid = false ∧ State.reset.cmpStrobe = false ∧
  (∃ t, exec .init State.reset = .next t ∧ t.resp = some ⟨.cfgError, 3⟩ ∧ t.block.mode = .fault) ∧
  (∀ s : State, s.pins = .rst →
    ∃ t, step s = .next t ∧ t.block = State.reset.block ∧ t.cmpStrobe = false)

/-! ## Time Extender -/

/-- R65: WRAP. -/
def Obligations.WrapExecutes : Prop :=
  (∀ s : State, s.block.mode = .running →
    exec .wrap s = .next { s with
      block := { s.block with ovfPend := true, wrapOverrun := s.block.wrapOverrun || s.block.ovfPend }
      resp := some ⟨.ok, 0⟩
      cmpStrobe := false }) ∧
  (∀ s : State, s.block.mode ≠ .running → exec .wrap s = .next (refusedWith .notRunning s)) ∧
  decode 0x1000000000 = .ok .wrap ∧
  (∀ w : OpWord, w.toNat / 2 ^ 36 = 1 → w ≠ 0x1000000000 → ∃ why, decode w = .error why)

/-- R66: OVFCHK. -/
def Obligations.OvfchkExecutes : Prop :=
  (∀ s : State, s.block.mode = .running → s.block.ovfPend = true →
    exec .ovfchk s = .next { s with
      block := { s.block with rollover := BitVec.ofNat 16 ((s.block.rollover.toNat + 1) % 2 ^ 16), ovfPend := false }
      resp := some ⟨.ok, 1⟩
      cmpStrobe := false }) ∧
  (∀ s : State, s.block.mode = .running → s.block.ovfPend = false →
    exec .ovfchk s = .next { s with resp := some ⟨.ok, 0⟩, cmpStrobe := false }) ∧
  (∀ s : State, s.block.mode ≠ .running → exec .ovfchk s = .next (refusedWith .notRunning s)) ∧
  decode 0x3000000000 = .ok .ovfchk ∧
  (∀ w : OpWord, w.toNat / 2 ^ 36 = 3 → w ≠ 0x3000000000 → ∃ why, decode w = .error why)

/-- R67: EXTEND, its two branches, the timestamp as a number, and its corner cases (iii), (iv) on LOW_THRESHOLD. -/
def Obligations.ExtendGivesTimestamp : Prop :=
  ∀ (b : Block) (raw : Raw),
    ((b.ovfPend = true ∧ raw.toNat < b.cfg.lowThreshold.toNat) →
      extendBlock b raw =
        { b with rollover := BitVec.ofNat 16 ((b.rollover.toNat + 1) % 2 ^ 16), ovfPend := false } ∧
      (extendTs b raw).toNat = (b.rollover.toNat + 1) % 2 ^ 16 * 65536 + raw.toNat) ∧
    (¬ (b.ovfPend = true ∧ raw.toNat < b.cfg.lowThreshold.toNat) →
      extendBlock b raw = b ∧ (extendTs b raw).toNat = b.rollover.toNat * 65536 + raw.toNat) ∧
    (b.cfg.lowThreshold = 0 → extendBlock b raw = b) ∧
    (0x10000 ≤ b.cfg.lowThreshold.toNat → b.ovfPend = true → (extendBlock b raw).ovfPend = false)

/-- R75 with R76 and R77: EDGE. `roll1` is the rollover count EXTEND stamps with, `ts` the timestamp as a number,
`d` the duration modulo 2^32 (0 where there is no previous sample), and SPEED is the floor of SCALE / d. -/
def Obligations.EdgeExecutes : Prop :=
  (∀ (s : State) (raw : Raw) (roll1 : Nat) (ts d : BitVec 32) (takes : Bool), s.block.mode = .running →
    takes = (s.block.ovfPend && decide (raw.toNat < s.block.cfg.lowThreshold.toNat)) →
    roll1 = (if takes then (s.block.rollover.toNat + 1) % 2 ^ 16 else s.block.rollover.toNat) →
    ts = BitVec.ofNat 32 (roll1 * 65536 + raw.toNat) →
    d = (if s.block.prevValid then BitVec.ofNat 32 ((ts.toNat + 2 ^ 32 - s.block.prevTs.toNat) % 2 ^ 32) else 0) →
    exec (.edge raw) s = .next { s with
      block := { s.block with
        rollover := BitVec.ofNat 16 roll1
        ovfPend := s.block.ovfPend && !takes
        prevTs := ts
        prevValid := true
        speed := if d = 0 then s.block.speed else BitVec.ofNat 32 (s.block.scale.toNat / d.toNat) }
      resp := some ⟨.ok, ts⟩
      cmpStrobe := false }) ∧
  (∀ (s : State) (raw : Raw), s.block.mode ≠ .running →
    exec (.edge raw) s = .next (refusedWith .notRunning s)) ∧
  (∀ raw : Raw, decode (BitVec.ofNat 40 (0x2000000000 + raw.toNat)) = .ok (.edge raw)) ∧
  (∀ w : OpWord, w.toNat / 2 ^ 36 = 2 → 2 ^ 16 ≤ w.toNat % 2 ^ 36 → ∃ why, decode w = .error why)

/-- R80: the same EDGE again consumes nothing, has duration 0 and changes nothing at all, however often it comes. -/
def Obligations.RepeatedEdgeHoldsSpeed : Prop :=
  ∀ (s : State) (raw : Raw), s.block.mode = .running →
    ∃ t, exec (.edge raw) s = .next t ∧ exec (.edge raw) t = .next t

/-- R79: SPEED is the floor of SCALE / d for every non-zero duration d, never above SCALE, 0 for d above SCALE, and a
non-increasing function of d. -/
def Obligations.SpeedIsNonIncreasingInDuration : Prop :=
  ∀ (s₁ s₂ t₁ t₂ : State) (raw₁ raw₂ : Raw),
    s₁.block.mode = .running → s₂.block.mode = .running → s₁.block.scale = s₂.block.scale →
    duration s₁.block (extendTs s₁.block raw₁) ≠ 0 →
    (duration s₁.block (extendTs s₁.block raw₁)).toNat < (duration s₂.block (extendTs s₂.block raw₂)).toNat →
    exec (.edge raw₁) s₁ = .next t₁ → exec (.edge raw₂) s₂ = .next t₂ →
    t₁.block.speed.toNat = s₁.block.scale.toNat / (duration s₁.block (extendTs s₁.block raw₁)).toNat ∧
    t₁.block.speed.toNat ≤ s₁.block.scale.toNat ∧
    (s₂.block.scale.toNat < (duration s₂.block (extendTs s₂.block raw₂)).toNat → t₂.block.speed = 0) ∧
    t₂.block.speed.toNat ≤ t₁.block.speed.toNat

/-- R14, R153: one operation in RUNNING mode. ROLLOVER changes only together with clearing a pending OVF_PEND, and then
by 1; only WRAP sets OVF_PEND; ROLLOVER + OVF_PEND grows by 1 exactly at a WRAP that finds the flag clear. -/
def Obligations.WrapsAreConsumedAtMostOnce : Prop :=
  ∀ (s t : State) (w : OpWord),
    s.pins = .op w → s.block.mode = .running → step s = .next t →
    (t.block.rollover ≠ s.block.rollover →
      s.block.ovfPend = true ∧ t.block.ovfPend = false ∧ t.block.rollover = s.block.rollover + 1) ∧
    (s.block.ovfPend = false → t.block.ovfPend = true → decode w = .ok .wrap) ∧
    (t.block.rollover.toNat + (if t.block.ovfPend then 1 else 0)) % 2 ^ 16 =
      (s.block.rollover.toNat + (if s.block.ovfPend then 1 else 0) +
        (if decode w = .ok .wrap ∧ s.block.ovfPend = false then 1 else 0)) % 2 ^ 16

/-- R68: the counting invariant, in every state reached from reset by any sequence of words: with WRAP_OVERRUN clear,
ROLLOVER + OVF_PEND is the number of WRAPs executed in RUNNING mode modulo 2^16 and every WRAP but a pending one has been
counted exactly once; in all cases the number of increments is at most the number of WRAPs. -/
def Obligations.RolloverCountsEveryWrapOnce : Prop :=
  ∀ (s t : State) (ws : List OpWord), s.block = Block.reset → t = afterWords s ws →
    (t.block.wrapOverrun = false →
      (t.block.rollover.toNat + (if t.block.ovfPend then 1 else 0)) % 2 ^ 16 = countWraps s ws % 2 ^ 16 ∧
      countIncrements s ws + (if t.block.ovfPend then 1 else 0) = countWraps s ws) ∧
    countIncrements s ws ≤ countWraps s ws

/-- R15: WRAP_OVERRUN is set by a WRAP that finds OVF_PEND set and by nothing else, and no sequence of operations clears
it once the block runs. -/
def Obligations.WrapOverrunIsSticky : Prop :=
  (∀ (s t : State) (w : OpWord), s.pins = .op w → s.block.mode = .running →
    step s = .next t → (t.block.wrapOverrun = true ↔
      s.block.wrapOverrun = true ∨ (decode w = .ok .wrap ∧ s.block.ovfPend = true))) ∧
  (∀ (s : State) (ws : List OpWord), s.block.mode = .running → s.block.wrapOverrun = true →
    (afterWords s ws).block.wrapOverrun = true)

/-- R150: under the obligations O1 to O4, from a running block that has counted nothing yet: every EDGE is answered with
its true time modulo 2^32; the duration between consecutive edges is the true elapsed count modulo 2^32; timestamps below
2^32 are non-decreasing; WRAP_OVERRUN stays 0; and every wrap reported has been counted exactly once, but for a pending
one. -/
def Obligations.TimestampsAreTrueUnderObligations : Prop :=
  ∀ (s : State) (es : List EnvEvent),
    s.block.mode = .running → s.block.rollover = 0 → s.block.ovfPend = false → s.block.wrapOverrun = false →
    (∀ e ∈ es, e.proper) → ObligationO1 es → ObligationO2 s.block.cfg.lowThreshold es → ObligationO3 es →
    ObligationO4 s.block.cfg.lowThreshold es →
    (∀ p τ q, es = p ++ .edge τ :: q →
      (afterWords s ((p ++ [.edge τ]).map EnvEvent.word)).resp = some ⟨.ok, BitVec.ofNat 32 τ⟩) ∧
    (∀ p τ q τ' r u, es = p ++ .edge τ :: (q ++ .edge τ' :: r) → (∀ x, .edge x ∉ q) →
      u = (afterWords s ((p ++ .edge τ :: q).map EnvEvent.word)).block →
      duration u (extendTs u (rawAt τ')) = BitVec.ofNat 32 (τ' - τ)) ∧
    (∀ p τ q τ' r, es = p ++ .edge τ :: (q ++ .edge τ' :: r) → τ' < 2 ^ 32 →
      ∃ ts ts' : Data,
        (afterWords s ((p ++ [.edge τ]).map EnvEvent.word)).resp = some ⟨.ok, ts⟩ ∧
        (afterWords s ((p ++ EnvEvent.edge τ :: q ++ [EnvEvent.edge τ']).map EnvEvent.word)).resp = some ⟨.ok, ts'⟩ ∧
        ts.toNat ≤ ts'.toNat) ∧
    (afterWords s (es.map EnvEvent.word)).block.wrapOverrun = false ∧
    countIncrements s (es.map EnvEvent.word) +
      (if (afterWords s (es.map EnvEvent.word)).block.ovfPend then 1 else 0) = wrapsIn es

/-- R154: without an EDGE, SPEED keeps its value for ever, whatever else the running block is given. -/
def Obligations.SpeedIsStaleWithoutEdges : Prop :=
  ∀ (s : State) (ws : List OpWord), s.block.mode = .running → (∀ w ∈ ws, ∀ raw, decode w ≠ .ok (.edge raw)) →
    (afterWords s ws).block.speed = s.block.speed

/-! ## PID Regulator and Actuator Mapper -/

/-- R85 with R87 and R100: TICK. The accumulator is the old one where a bound triggers (the undo), and the addition
modulo 2^64 otherwise; `rawOutput` is num / GAIN_DEN, floored. GAIN_DEN is not 0 in RUNNING mode (R111). No other
operation changes ERR, PREV_ERR, INTEG, DUTY or CMP (INIT's clears find them 0, by the invariant). -/
def Obligations.TickExecutes : Prop :=
  (∀ (s : State) (e num duty : Int) (i1 : BitVec 64), s.block.mode = .running → s.block.cfg.gainDen ≠ 0 →
    e = (s.block.target.toNat : Int) - s.block.speed.toNat →
    i1 = s.block.integ + BitVec.ofInt 64 e →
    num = s.block.cfg.kp.toNat * e + s.block.cfg.ki.toNat * i1.toInt +
      s.block.cfg.kd.toNat * (e - s.block.prevErr.toInt) →
    duty = (if num > 100 * s.block.cfg.gainDen.toNat then 100 else if num < 0 then 0
      else num / s.block.cfg.gainDen.toNat) →
    exec .tick s = .next { s with
      block := { s.block with
        err := BitVec.ofInt 64 e
        prevErr := BitVec.ofInt 64 e
        integ := if num > 100 * s.block.cfg.gainDen.toNat ∨ num < 0 then s.block.integ else i1
        duty := BitVec.ofInt 7 duty
        cmp := BitVec.ofInt 32 (duty * s.block.cfg.actPeriod.toNat / 100) }
      resp := some ⟨.ok, BitVec.ofInt 32 (duty * s.block.cfg.actPeriod.toNat / 100)⟩
      cmpStrobe := true }) ∧
  (∀ s : State, s.block.mode ≠ .running → exec .tick s = .next (refusedWith .notRunning s)) ∧
  (∀ (s t : State) (i : Instr), s.block.Inv → exec i s = .next t →
    (t.block.err ≠ s.block.err ∨ t.block.prevErr ≠ s.block.prevErr ∨ t.block.integ ≠ s.block.integ ∨
      t.block.duty ≠ s.block.duty ∨ t.block.cmp ≠ s.block.cmp) → i = .tick) ∧
  decode 0x4000000000 = .ok .tick ∧
  (∀ w : OpWord, w.toNat / 2 ^ 36 = 4 → w ≠ 0x4000000000 → ∃ why, decode w = .error why)

/-- R91: in every RUNNING state, a TICK that saturates high leaves DUTY = 100, INTEG unchanged, CMP = ACT_PERIOD and
ERR = PREV_ERR = TARGET - SPEED; one that saturates low leaves DUTY = 0, INTEG unchanged, CMP = 0. -/
def Obligations.SaturatedTickCancelsWindup : Prop :=
  ∀ (s : State) (num : Int), s.block.mode = .running →
    num = pidNum s.block.cfg ((s.block.target.toNat : Int) - s.block.speed.toNat)
      (swrap 64 (s.block.integ.toInt + ((s.block.target.toNat : Int) - s.block.speed.toNat))) s.block.prevErr →
    (num > 100 * s.block.cfg.gainDen.toNat →
      ∃ t, exec .tick s = .next t ∧ t.block.duty = 100 ∧ t.block.integ = s.block.integ ∧
        t.block.cmp = s.block.cfg.actPeriod ∧ t.block.err = t.block.prevErr ∧
        t.block.err.toInt = (s.block.target.toNat : Int) - s.block.speed.toNat) ∧
    (num < 0 →
      ∃ t, exec .tick s = .next t ∧ t.block.duty = 0 ∧ t.block.integ = s.block.integ ∧
        t.block.cmp = 0 ∧ t.block.err = t.block.prevErr ∧
        t.block.err.toInt = (s.block.target.toNat : Int) - s.block.speed.toNat)

/-- R89: the accumulator's addition is modulo 2^64 and its undo under the same arithmetic is exact, for every value. -/
def Obligations.IntegralUndoIsExact : Prop :=
  ∀ (integ : Acc) (e : Int),
    (swrap 64 (integ.toInt + e)).toInt % 2 ^ 64 = (integ.toInt + e) % 2 ^ 64 ∧
    swrap 64 ((swrap 64 (integ.toInt + e)).toInt - e) = integ

/-- R90: the ranges of the datapath, for every configuration and every previous error a run can leave (R23). -/
def Obligations.PidDatapathRanges : Prop :=
  ∀ (c : Cfg) (t m : Data) (i1 pe : Acc) (e : Int), e = (t.toNat : Int) - m.toNat →
    -(2 ^ 32 - 1) ≤ pe.toInt → pe.toInt ≤ 2 ^ 32 - 1 →
    |e| ≤ 2 ^ 32 - 1 ∧ |e - pe.toInt| ≤ 2 ^ 33 - 2 ∧ |c.kp.toNat * e| < 2 ^ 64 ∧
    |c.ki.toNat * i1.toInt| ≤ (2 ^ 32 - 1) * 2 ^ 63 ∧ |c.kd.toNat * (e - pe.toInt)| < 2 ^ 65 ∧
    |pidNum c e i1 pe| < 2 ^ 96 ∧ (100 * c.gainDen.toNat : Int) < 2 ^ 39 ∧
    (c.gainDen ≠ 0 → ∀ integ : Acc, (pidStep c t m integ pe).duty.toNat ≤ 100)

/-- R86: SETTGT stores the smaller of its operand and MAX_SPEED and answers with it. -/
def Obligations.SettgtExecutes : Prop :=
  (∀ (s : State) (v bounded : Data), s.block.mode = .running →
    bounded = (if v.toNat ≤ s.block.cfg.maxSpeed.toNat then v else s.block.cfg.maxSpeed) →
    exec (.settgt v) s = .next { s with
      block := { s.block with target := bounded }
      resp := some ⟨.ok, bounded⟩
      cmpStrobe := false }) ∧
  (∀ (s : State) (v : Data), s.block.mode ≠ .running →
    exec (.settgt v) s = .next (refusedWith .notRunning s)) ∧
  (∀ v : Data, decode (BitVec.ofNat 40 (0x5000000000 + v.toNat)) = .ok (.settgt v)) ∧
  (∀ w : OpWord, w.toNat / 2 ^ 36 = 5 → 2 ^ 32 ≤ w.toNat % 2 ^ 36 → ∃ why, decode w = .error why)

/-- R103: MAP_DUTY of 0 is 0 and of 100 the full period, for every period; it is monotone on 0..100; and it depends on
the duty and ACT_PERIOD alone. -/
def Obligations.MapperIsIdempotentAndMonotone : Prop :=
  (∀ c : Cfg, mapDuty c 0 = 0 ∧ mapDuty c 100 = c.actPeriod) ∧
  (∀ (c : Cfg) (d₁ d₂ : Duty), d₁.toNat ≤ d₂.toNat → d₂.toNat ≤ 100 →
    (mapDuty c d₁).toNat ≤ (mapDuty c d₂).toNat) ∧
  (∀ (c c' : Cfg) (d : Duty), c.actPeriod = c'.actPeriod → mapDuty c d = mapDuty c' d)

/-- R100, R101: the compare value of a duty in 0..100 is floor(duty × ACT_PERIOD / 100) and never above ACT_PERIOD, and
so is CMP after every TICK of a running block with a configuration INIT accepts. -/
def Obligations.CompareNeverExceedsPeriod : Prop :=
  (∀ (c : Cfg) (d : Duty), d.toNat ≤ 100 →
    (mapDuty c d).toNat = d.toNat * c.actPeriod.toNat / 100 ∧ (mapDuty c d).toNat ≤ c.actPeriod.toNat) ∧
  (∀ s : State, s.block.mode = .running → s.block.cfg.gainDen ≠ 0 →
    ∃ t, exec .tick s = .next t ∧ t.block.duty.toNat ≤ 100 ∧ t.block.cmp.toNat ≤ t.block.cfg.actPeriod.toNat)

/-- R102: cmp_out is CMP in every state; a TICK executed in RUNNING mode pulses the strobe and is answered with the new
CMP; no other operation changes CMP or pulses the strobe; reset sets CMP to 0 without a strobe. -/
def Obligations.OnlyTickDrivesTheActuator : Prop :=
  (∀ s : State, s.cmpOut = s.block.cmp) ∧
  (∀ (s t : State) (w : OpWord), s.block.Inv → s.pins = .op w → step s = .next t →
    (t.cmpStrobe = true ↔ decode w = .ok .tick ∧ s.block.mode = .running) ∧
    (t.cmpStrobe = true → t.resp = some ⟨.ok, t.cmpOut⟩) ∧
    (t.cmpOut ≠ s.cmpOut → decode w = .ok .tick ∧ s.block.mode = .running)) ∧
  (∀ s : State, s.pins = .rst →
    ∃ t, step s = .next t ∧ t.cmpOut = 0 ∧ t.cmpStrobe = false)

/-! ## Host interface -/

/-- R105, R106: GETSPD and GETDUTY are accepted in every mode and change nothing; under the invariant SPEED is 0 outside
RUNNING mode and the duty is at most 100. -/
def Obligations.ReadAccessorsExecute : Prop :=
  (∀ s : State, exec .getspd s = .next { s with resp := some ⟨.ok, s.block.speed⟩, cmpStrobe := false } ∧
    exec .getduty s =
      .next { s with resp := some ⟨.ok, BitVec.ofNat 32 s.block.duty.toNat⟩, cmpStrobe := false }) ∧
  decode 0x6000000000 = .ok .getspd ∧ decode 0x7000000000 = .ok .getduty ∧
  (∀ b : Block, b.Inv → b.mode ≠ .running → b.speed = 0 ∧ b.duty = 0)

/-- R107 with R25: GETSTAT is accepted in every mode, clears nothing, and answers the STATUS word as a number; its corner
cases on RUNNING and FAULT mode hold under the invariant. -/
def Obligations.GetstatExecutes : Prop :=
  (∀ s : State, ∃ v : Data,
    exec .getstat s = .next { s with resp := some ⟨.ok, v⟩, cmpStrobe := false } ∧
    v.toNat = s.block.mode.number.toNat + (if s.block.ovfPend then 4 else 0) + (if s.block.prevValid then 8 else 0) +
      (if s.block.wrapOverrun then 16 else 0) + s.block.cfgErr.toNat * 256) ∧
  (Mode.number .unconfigured = 0 ∧ Mode.number .running = 1 ∧ Mode.number .fault = 2) ∧
  decode 0x8000000000 = .ok .getstat ∧
  (∀ b : Block, b.Inv →
    (b.mode = .running → (status b).toNat % 4 = 1 ∧ (status b).toNat / 256 = 0) ∧
    (b.mode = .fault → (status b).toNat % 4 = 2 ∧ (status b).toNat / 256 ≠ 0))

/-- R108: each of the ten WRCFG writes its own register, all 32 bits, and nothing else, in UNCONFIGURED mode. -/
def Obligations.WrcfgExecutes : Prop :=
  ∀ (s : State) (v : Data) (written : Cfg → State), s.block.mode = .unconfigured →
    written = (fun c => { s with
      block := { s.block with cfg := c }, resp := some ⟨.ok, 0⟩, cmpStrobe := false }) →
    exec (.wrcfgKp v) s = .next (written { s.block.cfg with kp := v }) ∧
    exec (.wrcfgKi v) s = .next (written { s.block.cfg with ki := v }) ∧
    exec (.wrcfgKd v) s = .next (written { s.block.cfg with kd := v }) ∧
    exec (.wrcfgGainDen v) s = .next (written { s.block.cfg with gainDen := v }) ∧
    exec (.wrcfgMaxSpeed v) s = .next (written { s.block.cfg with maxSpeed := v }) ∧
    exec (.wrcfgPpr v) s = .next (written { s.block.cfg with ppr := v }) ∧
    exec (.wrcfgGearRatio v) s = .next (written { s.block.cfg with gearRatio := v }) ∧
    exec (.wrcfgTickFreq v) s = .next (written { s.block.cfg with tickFreq := v }) ∧
    exec (.wrcfgActPeriod v) s = .next (written { s.block.cfg with actPeriod := v }) ∧
    exec (.wrcfgLowThreshold v) s = .next (written { s.block.cfg with lowThreshold := v })

/-- R108, R110, R123: WRCFG and INIT outside UNCONFIGURED mode are answered CFG_LOCKED and change nothing. -/
def Obligations.ConfigurationIsLocked : Prop :=
  ∀ (s : State) (i : Instr), (isWrcfg i = true ∨ i = .init) → s.block.mode ≠ .unconfigured →
    exec i s = .next (refusedWith .cfgLocked s)

/-- R110 with R109 and R78: INIT in UNCONFIGURED mode. A configuration without a cause starts the block with
SCALE = floor(TICK_FREQ × 60 / (PPR × GEAR_RATIO)); any other sets CFGERR to exactly its causes and MODE to FAULT. -/
def Obligations.InitDecides : Prop :=
  ∀ (s : State) (pg sc : Nat) (causes : BitVec 3), s.block.mode = .unconfigured →
    pg = s.block.cfg.ppr.toNat * s.block.cfg.gearRatio.toNat →
    sc = s.block.cfg.tickFreq.toNat * 60 / pg →
    causes = BitVec.ofNat 3 ((if pg = 0 then 1 else 0) + (if s.block.cfg.gainDen = 0 then 2 else 0) +
      (if pg ≠ 0 ∧ 0xFFFFFFFF < sc then 4 else 0)) →
    (causes = 0 →
      exec .init s = .next { s with
        block := { mode := .running, ovfPend := false, wrapOverrun := false, prevValid := false,
                   cfgErr := s.block.cfgErr, rollover := 0, prevTs := 0, scale := BitVec.ofNat 32 sc, speed := 0,
                   target := 0, err := 0, prevErr := 0, integ := 0, duty := 0, cmp := 0, cfg := s.block.cfg }
        resp := some ⟨.ok, BitVec.ofNat 32 sc⟩
        cmpStrobe := false }) ∧
    (causes ≠ 0 →
      exec .init s = .next { s with
        block := { s.block with cfgErr := causes, mode := .fault }
        resp := some ⟨.cfgError, BitVec.ofNat 32 causes.toNat⟩
        cmpStrobe := false })

/-- R111: in every running state reached from reset by any sequence of words: GAIN_DEN ≥ 1, PPR × GEAR_RATIO ≥ 1, SCALE
is the derived constant and fits, CFGERR = 0, and no later sequence of words changes the configuration. -/
def Obligations.RunningModeGuarantee : Prop :=
  ∀ (s t : State) (ws : List OpWord), s.block = Block.reset → t = afterWords s ws → t.block.mode = .running →
    1 ≤ t.block.cfg.gainDen.toNat ∧ 1 ≤ t.block.cfg.ppr.toNat * t.block.cfg.gearRatio.toNat ∧
    t.block.scale.toNat = t.block.cfg.tickFreq.toNat * 60 / (t.block.cfg.ppr.toNat * t.block.cfg.gearRatio.toNat) ∧
    t.block.cfg.tickFreq.toNat * 60 / (t.block.cfg.ppr.toNat * t.block.cfg.gearRatio.toNat) ≤ 2 ^ 32 - 1 ∧
    t.block.cfgErr = 0 ∧ (∀ ws', (afterWords t ws').block.cfg = t.block.cfg)

/-- R60, R143, R144: the eleven words of SETUP, given to a block at reset with a configuration INIT accepts, leave MODE
RUNNING, SCALE derived, the configuration as written and every other register at its reset value. -/
def Obligations.SetupStartsTheBlock : Prop :=
  ∀ (s : State) (p : Setup) (ws : List OpWord), s.block = Block.reset →
    assemble (.setup p) = some (ws.map PortInput.op) →
    p.gainDen ≠ 0 → p.ppr * p.gearRatio ≠ 0 → p.tickFreq * 60 / (p.ppr * p.gearRatio) ≤ 0xFFFFFFFF →
    ws.length = 11 ∧
    (afterWords s ws).resp = some ⟨.ok, BitVec.ofNat 32 (p.tickFreq * 60 / (p.ppr * p.gearRatio))⟩ ∧
    (afterWords s ws).block = { Block.reset with
      mode := .running
      scale := BitVec.ofNat 32 (p.tickFreq * 60 / (p.ppr * p.gearRatio))
      cfg := { kp := BitVec.ofNat 32 p.kp, ki := BitVec.ofNat 32 p.ki, kd := BitVec.ofNat 32 p.kd,
               gainDen := BitVec.ofNat 32 p.gainDen, maxSpeed := BitVec.ofNat 32 p.maxSpeed,
               ppr := BitVec.ofNat 32 p.ppr, gearRatio := BitVec.ofNat 32 p.gearRatio,
               tickFreq := BitVec.ofNat 32 p.tickFreq, actPeriod := BitVec.ofNat 32 p.actPeriod,
               lowThreshold := BitVec.ofNat 32 p.lowThreshold } }

/-- R59: the assembler refuses an operand out of range and does not truncate; in range it gives the word of R59's table,
as a number. -/
def Obligations.AssemblerDoesNotTruncate : Prop :=
  (∀ raw, assemble (.edge raw) =
    if raw ≤ 0xFFFF then some [.op (BitVec.ofNat 40 (0x2000000000 + raw))] else none) ∧
  (∀ v, assemble (.settgt v) =
    if v ≤ 0xFFFFFFFF then some [.op (BitVec.ofNat 40 (0x5000000000 + v))] else none) ∧
  (∀ i v, assemble (.wrcfg i v) =
    if i ≤ 9 ∧ v ≤ 0xFFFFFFFF then some [.op (BitVec.ofNat 40 (0x9000000000 + i * 2 ^ 32 + v))] else none) ∧
  (∀ w, assemble (.word w) = if w ≤ 0xFFFFFFFFFF then some [.op (BitVec.ofNat 40 w)] else none)

/-! ## Whole-machine rules -/

/-- R123: the mode matrix: in every state every operation is answered, with the code of its cell. -/
def Obligations.ModeMatrix : Prop :=
  ∀ (i : Instr) (s : State), ∃ (t : State) (r : Response), exec i s = .next t ∧ t.resp = some r ∧
    (needsRunning i = true → (r.code = if s.block.mode = .running then .ok else .notRunning)) ∧
    (isRead i = true → r.code = .ok) ∧
    (isWrcfg i = true → (r.code = if s.block.mode = .unconfigured then .ok else .cfgLocked)) ∧
    (i = .init → (if s.block.mode = .unconfigured then r.code = .ok ∨ r.code = .cfgError else r.code = .cfgLocked))

/-- R13, R110: no operation leaves RUNNING or FAULT, and only INIT leaves UNCONFIGURED, to RUNNING when CHECK_CFG finds
no cause and to FAULT when it finds one. -/
def Obligations.OnlyInitChangesMode : Prop :=
  ∀ (s t : State) (w : OpWord), s.pins = .op w → step s = .next t →
    (s.block.mode ≠ .unconfigured → t.block.mode = s.block.mode) ∧
    (decode w ≠ .ok .init → t.block.mode = s.block.mode) ∧
    (s.block.mode = .unconfigured → decode w = .ok .init →
      t.block.mode = if checkCfg s.block.cfg = 0 then .running else .fault)

/-- R125: in FAULT mode no sequence of words changes any register; only the three reads are answered OK. -/
def Obligations.FaultIsLeftOnlyByReset : Prop :=
  ∀ (s : State) (ws : List OpWord), s.block.mode = .fault →
    (afterWords s ws).block = s.block ∧
    (∀ (w : OpWord) (i : Instr) (r : Response), decode w = .ok i → (afterWord s w).resp = some r →
      (r.code = .ok ↔ isRead i = true))

/-- R26, R20: once the block runs, no sequence of words changes its mode, its configuration or SCALE. -/
def Obligations.ConfigurationIsConstantWhileRunning : Prop :=
  ∀ (s : State) (ws : List OpWord), s.block.mode = .running →
    (afterWords s ws).block.mode = .running ∧ (afterWords s ws).block.cfg = s.block.cfg ∧
    (afterWords s ws).block.scale = s.block.scale

/-- R10, the column "written by": each register and flag is changed by no operation but those its row names. -/
def Obligations.RegistersHaveTheirWriters : Prop :=
  ∀ (s t : State) (i : Instr), s.block.Inv → exec i s = .next t →
    (t.block.mode ≠ s.block.mode → i = .init) ∧
    (t.block.ovfPend ≠ s.block.ovfPend → i = .wrap ∨ isEdge i ∨ i = .ovfchk) ∧
    (t.block.wrapOverrun ≠ s.block.wrapOverrun → i = .wrap) ∧
    (t.block.prevValid ≠ s.block.prevValid → isEdge i) ∧
    (t.block.cfgErr ≠ s.block.cfgErr → i = .init) ∧
    (t.block.rollover ≠ s.block.rollover → isEdge i ∨ i = .ovfchk) ∧
    (t.block.prevTs ≠ s.block.prevTs → isEdge i) ∧
    (t.block.scale ≠ s.block.scale → i = .init) ∧
    (t.block.speed ≠ s.block.speed → isEdge i) ∧
    (t.block.target ≠ s.block.target → isSettgt i) ∧
    (t.block.err ≠ s.block.err → i = .tick) ∧
    (t.block.prevErr ≠ s.block.prevErr → i = .tick) ∧
    (t.block.integ ≠ s.block.integ → i = .tick) ∧
    (t.block.duty ≠ s.block.duty → i = .tick) ∧
    (t.block.cmp ≠ s.block.cmp → i = .tick) ∧
    (t.block.cfg ≠ s.block.cfg → isWrcfg i = true)

/-- R45: reads are invisible: any number of GET operations anywhere in a sequence of words leaves the block as the
sequence without them does. -/
def Obligations.ReadsAreInvisible : Prop :=
  ∀ (s : State) (ws : List OpWord) (keep : OpWord → Bool),
    (∀ w, keep w = false → ∃ i, decode w = .ok i ∧ isRead i = true) →
    (afterWords s ws).block = (afterWords s (ws.filter keep)).block

/-- R10's column "read by", R75, R65, R66: the time path does not depend on the regulator. Two running blocks that agree
on the registers of the Time Extender and the RPM Estimator and on LOW_THRESHOLD still agree on them after any one
sequence of words, and answer every WRAP, EDGE, OVFCHK and GETSPD in it alike. -/
def Obligations.TimePathIgnoresRegulator : Prop :=
  ∀ (s₁ s₂ : State) (agree : Block → Block → Prop),
    agree = (fun b₁ b₂ => b₁.ovfPend = b₂.ovfPend ∧ b₁.wrapOverrun = b₂.wrapOverrun ∧ b₁.prevValid = b₂.prevValid ∧
      b₁.rollover = b₂.rollover ∧ b₁.prevTs = b₂.prevTs ∧ b₁.scale = b₂.scale ∧ b₁.speed = b₂.speed ∧
      b₁.cfg.lowThreshold = b₂.cfg.lowThreshold) →
    s₁.block.mode = .running → s₂.block.mode = .running → agree s₁.block s₂.block →
    (∀ ws, agree (afterWords s₁ ws).block (afterWords s₂ ws).block) ∧
    (∀ ws w, (decode w = .ok .wrap ∨ decode w = .ok .ovfchk ∨ decode w = .ok .getspd ∨
        ∃ raw, decode w = .ok (.edge raw)) →
      (afterWords s₁ (ws ++ [w])).resp = (afterWords s₂ (ws ++ [w])).resp)

/-- R46, R136, R12: driving the machine with a sequence of words is executing them one by one, each seeing the complete
effect of every earlier one; and idle steps anywhere between events, however many, leave the block as the events without
them do. -/
def Obligations.StepsAreTheFoldOfWords : Prop :=
  (∀ (s : State) (ws : List OpWord), drive s (ws.map PortInput.op) = .next (afterWords s ws)) ∧
  (∀ (s t t' : State) (es : List PortInput),
    drive s es = .next t → drive s (es.filter fun e => e ≠ .idle) = .next t' → t.block = t'.block)

/-- R124, R121: nothing stops the machine: from every state, whatever the environment puts on its pins before each of any
number of steps, every step is answered by a next state. -/
def Obligations.EveryRunGoesOn : Prop :=
  ∀ (es : List PortInput) (s : State), RunsFor es s

/-- R141: the reset state satisfies the invariant. -/
def Obligations.InvariantAtReset : Prop :=
  State.reset.block.Inv

/-- R17, R22, R23, R24, R79, R111, R123: every step, whatever stands on the ports, keeps the invariant. -/
def Obligations.InvariantIsKept : Prop :=
  ∀ s t : State, s.block.Inv → step s = .next t → t.block.Inv

/-- R10 "Nothing else is state", R11: two machines with equal blocks, whatever stands on their pins, do the same for ever:
they are in the same state after every sequence of port events but the empty one, and show the same trace (R37). -/
def Obligations.OnlyTheBlockIsState : Prop :=
  ∀ s₁ s₂ : State, s₁.block = s₂.block →
    (∀ (e : PortInput) (es : List PortInput), drive s₁ (e :: es) = drive s₂ (e :: es)) ∧
    (∀ ws : List OpWord, trace s₁ ws = trace s₂ ws)
end

