-- ==== Sys2Proof/Laws/Decode.lean ====
section
/-! SUPPORT. The fields of a word as numbers and of a packed word, and what each decoder can answer. -/

namespace Sys2Proof

theorem opField_toNat (w : OpWord) : (opField w).toNat = w.toNat / 2 ^ 36 := by
  have h := w.isLt
  simp only [opField, BitVec.extractLsb'_toNat, Nat.shiftRight_eq_div_pow]
  exact Nat.mod_eq_of_lt (by omega)

theorem idxField_toNat (w : OpWord) : (idxField w).toNat = w.toNat / 2 ^ 32 % 16 := by
  simp [idxField, BitVec.extractLsb'_toNat, Nat.shiftRight_eq_div_pow]

theorem dataField_toNat (w : OpWord) : (dataField w).toNat = w.toNat % 2 ^ 32 := by
  simp [dataField, BitVec.extractLsb'_toNat, Nat.shiftRight_eq_div_pow]

theorem rawField_toNat (w : OpWord) : (rawField w).toNat = w.toNat % 2 ^ 16 := by
  simp [rawField, BitVec.extractLsb'_toNat, Nat.shiftRight_eq_div_pow]

theorem highField_toNat (w : OpWord) : (highField w).toNat = w.toNat / 2 ^ 16 % 2 ^ 16 := by
  simp [highField, BitVec.extractLsb'_toNat, Nat.shiftRight_eq_div_pow]

theorem packWord_toNat (op idx : BitVec 4) (data : Data) :
    (packWord op idx data).toNat = op.toNat * 2 ^ 36 + idx.toNat * 2 ^ 32 + data.toNat := by
  have h1 := idx.isLt
  have h2 := data.isLt
  simp only [packWord, BitVec.toNat_append, Nat.shiftLeft_eq]
  rw [← Nat.shiftLeft_eq, ← Nat.shiftLeft_eq, ← Nat.shiftLeft_add_eq_or_of_lt (by omega),
    ← Nat.shiftLeft_add_eq_or_of_lt (by omega)]
  simp only [Nat.shiftLeft_eq]
  omega

/-- EDGE's data field (R51). -/
theorem edgeData_toNat (raw : Raw) : (0#16 ++ raw).toNat = raw.toNat := by
  rw [BitVec.toNat_append]
  simp

/-- The fields of a packed word are the three it was packed from. -/
theorem opField_packWord (op idx : BitVec 4) (data : Data) : opField (packWord op idx data) = op := by
  have := op.isLt
  have := idx.isLt
  have := data.isLt
  apply BitVec.eq_of_toNat_eq
  rw [opField_toNat, packWord_toNat]
  omega

theorem idxField_packWord (op idx : BitVec 4) (data : Data) : idxField (packWord op idx data) = idx := by
  have := idx.isLt
  have := data.isLt
  apply BitVec.eq_of_toNat_eq
  rw [idxField_toNat, packWord_toNat]
  omega

theorem dataField_packWord (op idx : BitVec 4) (data : Data) : dataField (packWord op idx data) = data := by
  have := data.isLt
  apply BitVec.eq_of_toNat_eq
  rw [dataField_toNat, packWord_toNat]
  omega

/-- A word is what its three fields are. -/
theorem packWord_fields (w : OpWord) : packWord (opField w) (idxField w) (dataField w) = w := by
  apply BitVec.eq_of_toNat_eq
  rw [packWord_toNat, opField_toNat, idxField_toNat, dataField_toNat]
  omega

/-! ## What each decoder answers -/

theorem decodePlain_ok (w : OpWord) (i j : Instr) :
    decodePlain w i = .ok j ↔ idxField w = 0 ∧ dataField w = 0 ∧ i = j := by
  unfold decodePlain
  split
  · exact ⟨(nomatch ·), fun h => absurd h.1 ‹_›⟩
  · split <;> simp_all

theorem decodeEdge_ok (w : OpWord) (j : Instr) :
    decodeEdge w = .ok j ↔ idxField w = 0 ∧ highField w = 0 ∧ .edge (rawField w) = j := by
  unfold decodeEdge
  split
  · exact ⟨(nomatch ·), fun h => absurd h.1 ‹_›⟩
  · split <;> simp_all

theorem decodeSettgt_ok (w : OpWord) (j : Instr) :
    decodeSettgt w = .ok j ↔ idxField w = 0 ∧ .settgt (dataField w) = j := by
  unfold decodeSettgt
  split <;> simp_all

/-- A word is decoded to an operation or refused under a name, never both (R53). -/
theorem decode_total (w : OpWord) : (∃ i, decode w = .ok i) ∨ (∃ why, decode w = .error why) := by
  cases h : decode w with
  | ok i => exact .inl ⟨i, rfl⟩
  | error why => exact .inr ⟨why, rfl⟩

end Sys2Proof
end

