-- ==== Sys2Proof/Laws/Operands.lean ====
section
/-! SUPPORT. The notation of R6 read as numbers: one lemma for each function, cited in place of its definition. -/

namespace Sys2Proof.Machine

theorem zext32_toNat {m : Nat} (v : BitVec m) (h : m ≤ 32) : (zext32 v).toNat = v.toNat := by
  have hlt := v.isLt
  have h2 : 2 ^ m ≤ 2 ^ 32 := Nat.pow_le_pow_right (by decide) h
  simp only [zext32, BitVec.toNat_setWidth]
  exact Nat.mod_eq_of_lt (by omega)

theorem flag32_toNat (f : Bool) : (flag32 f).toNat = if f then 1 else 0 := by cases f <;> rfl

theorem uwrap_ofNat (n k : Nat) : uwrap n (k : Int) = BitVec.ofNat n k := by simp [uwrap]

theorem uwrap_toNat_ofNat (n k : Nat) : (uwrap n (k : Int)).toNat = k % 2 ^ n := by simp [uwrap]

/-- The value of ROLLOVER after an increment (R18). -/
theorem uwrap16_succ (r : Roll) : uwrap 16 ((r.toNat : Int) + 1) = r + 1 := by
  apply BitVec.eq_of_toNat_eq
  have h : ((r.toNat : Int) + 1) = ((r.toNat + 1 : Nat) : Int) := by push_cast; rfl
  rw [h, uwrap_toNat_ofNat]
  simp [BitVec.toNat_add]

/-- DURATION's subtraction is the difference of bit vectors (R76). -/
theorem uwrap32_sub (a b : Data) : uwrap 32 ((a.toNat : Int) - b.toNat) = a - b := by
  simp [uwrap, Int.sub_eq_add_neg, BitVec.ofInt_add, BitVec.ofInt_neg, BitVec.sub_eq_add_neg]

/-- The accumulator's addition is the sum of bit vectors (R89). -/
theorem swrap64_add (a : Acc) (e : Int) : swrap 64 (a.toInt + e) = a + BitVec.ofInt 64 e := by
  simp [swrap, BitVec.ofInt_add]

/-- The undo is the difference of bit vectors (R89). -/
theorem swrap64_sub (a : Acc) (e : Int) : swrap 64 (a.toInt - e) = a - BitVec.ofInt 64 e := by
  simp [swrap, Int.sub_eq_add_neg, BitVec.ofInt_add, BitVec.ofInt_neg, BitVec.sub_eq_add_neg]

/-- An error, a difference of two u32, fits s64 (R23). -/
theorem sext64_toInt (e : Int) (lo : -(2 ^ 32) < e) (hi : e < 2 ^ 32) : (sext64 e).toInt = e := by
  simp only [sext64, BitVec.toInt_ofInt]
  exact Int.bmod_eq_of_le (by norm_num; omega) (by norm_num; omega)

theorem fdiv_of_pos (a b : Nat) (h : b ≠ 0) : fdiv a b = a / b := by simp [fdiv, h]

theorem min32_toNat (a b : Data) : (min32 a b).toNat = min a.toNat b.toNat := by
  unfold min32
  split <;> omega

/-- MAP_DUTY on 0..100 is the formula of R100. -/
theorem mapDuty_toNat (c : Cfg) (d : Duty) (h : d.toNat ≤ 100) :
    (mapDuty c d).toNat = d.toNat * c.actPeriod.toNat / 100 := by
  have hp := c.actPeriod.isLt
  have hm : d.toNat * c.actPeriod.toNat ≤ 100 * c.actPeriod.toNat := Nat.mul_le_mul_right _ h
  have hq : d.toNat * c.actPeriod.toNat / 100 < 2 ^ 32 := by omega
  simp only [mapDuty, fdiv_of_pos _ 100 (by decide), hq, if_true, BitVec.toNat_ofNat]
  exact Nat.mod_eq_of_lt hq

/-- The three outcomes of PID_STEP (R87), by the sign of num and its comparison with 100 × GAIN_DEN. -/
theorem pidStep_cases (c : Cfg) (t m : Data) (integ pe : Acc) (e num : Int) (i1 : Acc)
    (he : e = (t.toNat : Int) - m.toNat) (hi : i1 = integ + BitVec.ofInt 64 e) (hn : num = pidNum c e i1 pe) :
    (num > 100 * c.gainDen.toNat ∧ pidStep c t m integ pe = ⟨e, integ, 100⟩) ∨
    (num ≤ 100 * c.gainDen.toNat ∧ num < 0 ∧ pidStep c t m integ pe = ⟨e, integ, 0⟩) ∨
    (num ≤ 100 * c.gainDen.toNat ∧ 0 ≤ num ∧
      pidStep c t m integ pe = ⟨e, i1, BitVec.ofNat 7 (fdiv num.toNat c.gainDen.toNat)⟩) := by
  have hundo : swrap 64 (i1.toInt - e) = integ := by rw [swrap64_sub, hi, BitVec.add_sub_cancel]
  have hstep : pidStep c t m integ pe =
      if num > 100 * c.gainDen.toNat then ⟨e, swrap 64 (i1.toInt - e), 100⟩
      else if num < 0 then ⟨e, swrap 64 (i1.toInt - e), 0⟩
      else ⟨e, i1, BitVec.ofNat 7 (fdiv num.toNat c.gainDen.toNat)⟩ := by
    subst hn hi he
    simp only [pidStep, swrap64_add, Config.dutyMax]
    rfl
  rw [hundo] at hstep
  by_cases h1 : num > 100 * c.gainDen.toNat
  · exact .inl ⟨h1, by rw [hstep, if_pos h1]⟩
  · by_cases h2 : num < 0
    · exact .inr (.inl ⟨by omega, h2, by rw [hstep, if_neg h1, if_pos h2]⟩)
    · exact .inr (.inr ⟨by omega, by omega, by rw [hstep, if_neg h1, if_neg h2]⟩)

end Sys2Proof.Machine
end

