-- ==== Sys2Proof/Laws/Flags.lean ====
section
/-! SUPPORT. The flag computations as numbers and conditions. -/

namespace Sys2Proof.Machine

/-- DERIVE_SCALE under its precondition (R78). -/
theorem deriveScale_eq (c : Cfg) (h : divisor c ≠ 0) : deriveScale c = c.tickFreq.toNat * 60 / divisor c := by
  simp [deriveScale, fdiv_of_pos _ _ h, Config.secPerMin]

/-- SCALE_RANGE as R109 writes it. -/
theorem scaleRange_iff (c : Cfg) :
    scaleRange c = true ↔ divisor c ≠ 0 ∧ 0xFFFFFFFF < c.tickFreq.toNat * 60 / divisor c := by
  unfold scaleRange
  split
  · simp_all
  · rename_i h
    simp [deriveScale_eq c h, h]

/-- CHECK_CFG finds nothing exactly where none of the three causes holds (R109). -/
theorem checkCfg_eq_zero (c : Cfg) :
    checkCfg c = 0 ↔ zeroPprGear c = false ∧ zeroGainDen c = false ∧ scaleRange c = false := by
  unfold checkCfg
  cases zeroPprGear c <;> cases zeroGainDen c <;> cases scaleRange c <;> decide

/-- A configuration INIT accepts (R109, R111). -/
theorem checkCfg_accepts (c : Cfg) (h : checkCfg c = 0) :
    divisor c ≠ 0 ∧ c.gainDen ≠ 0 ∧ c.tickFreq.toNat * 60 / divisor c ≤ 0xFFFFFFFF := by
  obtain ⟨h1, h2, h3⟩ := (checkCfg_eq_zero c).1 h
  have hd : divisor c ≠ 0 := by simpa [zeroPprGear] using h1
  refine ⟨hd, by simpa [zeroGainDen] using h2, ?_⟩
  by_contra hlt
  rw [(scaleRange_iff c).2 ⟨hd, by omega⟩] at h3
  exact Bool.noConfusion h3

end Sys2Proof.Machine
end

