-- ==== Sys2Proof/Laws/PerInstr.lean ====
section
/-! SUPPORT. Statements about every operation as syntax, one lemma for each constructor. Family `RowSelected` (R52): the
encoding of an operation selects that operation's row of the opcode map. -/

namespace Sys2Proof.Laws.RowSelected

def Statement (i : Instr) : Prop := encode i &&& (rowOf i).mask = (rowOf i).pattern

/-- A word of which a row keeps the op and idx fields (mask 0xFF00000000). -/
theorem pack_and_data (op idx : BitVec 4) (v : Data) :
    packWord op idx v &&& 0xFF00000000 = packWord op idx 0 := by
  apply BitVec.eq_of_getLsbD_eq
  intro k hk
  simp only [packWord, BitVec.getLsbD_and, BitVec.getLsbD_append]
  by_cases h : k < 32
  · have : (0xFF00000000#40).getLsbD k = false := by
      revert k
      decide
    simp [h, this]
  · have : (0xFF00000000#40).getLsbD k = true := by
      revert k
      decide
    simp [h, this]

/-- A word of which EDGE's row keeps all but the raw value (mask 0xFFFFFF0000). -/
theorem pack_and_edge (raw : Raw) : packWord 0x2 0 (0#16 ++ raw) &&& 0xFFFFFF0000 = packWord 0x2 0 0 := by
  apply BitVec.eq_of_getLsbD_eq
  intro k hk
  simp only [packWord, BitVec.getLsbD_and, BitVec.getLsbD_append]
  by_cases h : k < 16
  · have : (0xFFFFFF0000#40).getLsbD k = false := by
      revert k
      decide
    have h32 : k < 32 := by omega
    simp [h, h32, this]
  · by_cases h2 : k < 32
    · simp [h, h2]
    · have : (0xFFFFFF0000#40).getLsbD k = true := by
        revert k
        decide
      simp [h2, this]

theorem wrap : Statement .wrap := by unfold Statement; decide

theorem edge (raw : Raw) : Statement (.edge raw) := (pack_and_edge raw).trans rfl

theorem ovfchk : Statement .ovfchk := by unfold Statement; decide

theorem tick : Statement .tick := by unfold Statement; decide

theorem settgt (v : Data) : Statement (.settgt v) := (pack_and_data _ _ v).trans rfl

theorem getspd : Statement .getspd := by unfold Statement; decide

theorem getduty : Statement .getduty := by unfold Statement; decide

theorem getstat : Statement .getstat := by unfold Statement; decide

theorem wrcfgKp (v : Data) : Statement (.wrcfgKp v) := (pack_and_data _ _ v).trans rfl

theorem wrcfgKi (v : Data) : Statement (.wrcfgKi v) := (pack_and_data _ _ v).trans rfl

theorem wrcfgKd (v : Data) : Statement (.wrcfgKd v) := (pack_and_data _ _ v).trans rfl

theorem wrcfgGainDen (v : Data) : Statement (.wrcfgGainDen v) := (pack_and_data _ _ v).trans rfl

theorem wrcfgMaxSpeed (v : Data) : Statement (.wrcfgMaxSpeed v) := (pack_and_data _ _ v).trans rfl

theorem wrcfgPpr (v : Data) : Statement (.wrcfgPpr v) := (pack_and_data _ _ v).trans rfl

theorem wrcfgGearRatio (v : Data) : Statement (.wrcfgGearRatio v) := (pack_and_data _ _ v).trans rfl

theorem wrcfgTickFreq (v : Data) : Statement (.wrcfgTickFreq v) := (pack_and_data _ _ v).trans rfl

theorem wrcfgActPeriod (v : Data) : Statement (.wrcfgActPeriod v) := (pack_and_data _ _ v).trans rfl

theorem wrcfgLowThreshold (v : Data) : Statement (.wrcfgLowThreshold v) := (pack_and_data _ _ v).trans rfl

theorem init : Statement .init := by unfold Statement; decide

end Sys2Proof.Laws.RowSelected
end

