-- ==== Sys2Proof/Laws/State.lean ====
section
/-! SUPPORT. For each named update of the state or the block, what each field is after it: true by rfl, tagged simp, so
that no later proof unfolds a record update. -/

namespace Sys2Proof.Machine


/-! ## recordWrap -/

@[simp] theorem recordWrap_mode (b : Block) : (recordWrap b).mode = b.mode := rfl
@[simp] theorem recordWrap_ovfPend (b : Block) : (recordWrap b).ovfPend = true := rfl
@[simp] theorem recordWrap_wrapOverrun (b : Block) : (recordWrap b).wrapOverrun = (b.wrapOverrun || b.ovfPend) := rfl
@[simp] theorem recordWrap_prevValid (b : Block) : (recordWrap b).prevValid = b.prevValid := rfl
@[simp] theorem recordWrap_cfgErr (b : Block) : (recordWrap b).cfgErr = b.cfgErr := rfl
@[simp] theorem recordWrap_rollover (b : Block) : (recordWrap b).rollover = b.rollover := rfl
@[simp] theorem recordWrap_prevTs (b : Block) : (recordWrap b).prevTs = b.prevTs := rfl
@[simp] theorem recordWrap_scale (b : Block) : (recordWrap b).scale = b.scale := rfl
@[simp] theorem recordWrap_speed (b : Block) : (recordWrap b).speed = b.speed := rfl
@[simp] theorem recordWrap_target (b : Block) : (recordWrap b).target = b.target := rfl
@[simp] theorem recordWrap_err (b : Block) : (recordWrap b).err = b.err := rfl
@[simp] theorem recordWrap_prevErr (b : Block) : (recordWrap b).prevErr = b.prevErr := rfl
@[simp] theorem recordWrap_integ (b : Block) : (recordWrap b).integ = b.integ := rfl
@[simp] theorem recordWrap_duty (b : Block) : (recordWrap b).duty = b.duty := rfl
@[simp] theorem recordWrap_cmp (b : Block) : (recordWrap b).cmp = b.cmp := rfl
@[simp] theorem recordWrap_cfg (b : Block) : (recordWrap b).cfg = b.cfg := rfl

/-! ## consumeWrap -/

@[simp] theorem consumeWrap_mode (b : Block) : (consumeWrap b).mode = b.mode := rfl
@[simp] theorem consumeWrap_ovfPend (b : Block) : (consumeWrap b).ovfPend = false := rfl
@[simp] theorem consumeWrap_wrapOverrun (b : Block) : (consumeWrap b).wrapOverrun = b.wrapOverrun := rfl
@[simp] theorem consumeWrap_prevValid (b : Block) : (consumeWrap b).prevValid = b.prevValid := rfl
@[simp] theorem consumeWrap_cfgErr (b : Block) : (consumeWrap b).cfgErr = b.cfgErr := rfl
@[simp] theorem consumeWrap_rollover (b : Block) : (consumeWrap b).rollover = uwrap 16 (b.rollover.toNat + 1) := rfl
@[simp] theorem consumeWrap_prevTs (b : Block) : (consumeWrap b).prevTs = b.prevTs := rfl
@[simp] theorem consumeWrap_scale (b : Block) : (consumeWrap b).scale = b.scale := rfl
@[simp] theorem consumeWrap_speed (b : Block) : (consumeWrap b).speed = b.speed := rfl
@[simp] theorem consumeWrap_target (b : Block) : (consumeWrap b).target = b.target := rfl
@[simp] theorem consumeWrap_err (b : Block) : (consumeWrap b).err = b.err := rfl
@[simp] theorem consumeWrap_prevErr (b : Block) : (consumeWrap b).prevErr = b.prevErr := rfl
@[simp] theorem consumeWrap_integ (b : Block) : (consumeWrap b).integ = b.integ := rfl
@[simp] theorem consumeWrap_duty (b : Block) : (consumeWrap b).duty = b.duty := rfl
@[simp] theorem consumeWrap_cmp (b : Block) : (consumeWrap b).cmp = b.cmp := rfl
@[simp] theorem consumeWrap_cfg (b : Block) : (consumeWrap b).cfg = b.cfg := rfl

/-! ## tickBlock -/

@[simp] theorem tickBlock_mode (b : Block) (p : PidResult) : (tickBlock b p).mode = b.mode := rfl
@[simp] theorem tickBlock_ovfPend (b : Block) (p : PidResult) : (tickBlock b p).ovfPend = b.ovfPend := rfl
@[simp] theorem tickBlock_wrapOverrun (b : Block) (p : PidResult) : (tickBlock b p).wrapOverrun = b.wrapOverrun := rfl
@[simp] theorem tickBlock_prevValid (b : Block) (p : PidResult) : (tickBlock b p).prevValid = b.prevValid := rfl
@[simp] theorem tickBlock_cfgErr (b : Block) (p : PidResult) : (tickBlock b p).cfgErr = b.cfgErr := rfl
@[simp] theorem tickBlock_rollover (b : Block) (p : PidResult) : (tickBlock b p).rollover = b.rollover := rfl
@[simp] theorem tickBlock_prevTs (b : Block) (p : PidResult) : (tickBlock b p).prevTs = b.prevTs := rfl
@[simp] theorem tickBlock_scale (b : Block) (p : PidResult) : (tickBlock b p).scale = b.scale := rfl
@[simp] theorem tickBlock_speed (b : Block) (p : PidResult) : (tickBlock b p).speed = b.speed := rfl
@[simp] theorem tickBlock_target (b : Block) (p : PidResult) : (tickBlock b p).target = b.target := rfl
@[simp] theorem tickBlock_err (b : Block) (p : PidResult) : (tickBlock b p).err = sext64 p.e := rfl
@[simp] theorem tickBlock_prevErr (b : Block) (p : PidResult) : (tickBlock b p).prevErr = sext64 p.e := rfl
@[simp] theorem tickBlock_integ (b : Block) (p : PidResult) : (tickBlock b p).integ = p.integ := rfl
@[simp] theorem tickBlock_duty (b : Block) (p : PidResult) : (tickBlock b p).duty = p.duty := rfl
@[simp] theorem tickBlock_cmp (b : Block) (p : PidResult) : (tickBlock b p).cmp = mapDuty b.cfg p.duty := rfl
@[simp] theorem tickBlock_cfg (b : Block) (p : PidResult) : (tickBlock b p).cfg = b.cfg := rfl

/-! ## startBlock -/

@[simp] theorem startBlock_mode (b : Block) : (startBlock b).mode = .running := rfl
@[simp] theorem startBlock_ovfPend (b : Block) : (startBlock b).ovfPend = false := rfl
@[simp] theorem startBlock_wrapOverrun (b : Block) : (startBlock b).wrapOverrun = false := rfl
@[simp] theorem startBlock_prevValid (b : Block) : (startBlock b).prevValid = false := rfl
@[simp] theorem startBlock_cfgErr (b : Block) : (startBlock b).cfgErr = b.cfgErr := rfl
@[simp] theorem startBlock_rollover (b : Block) : (startBlock b).rollover = 0 := rfl
@[simp] theorem startBlock_prevTs (b : Block) : (startBlock b).prevTs = 0 := rfl
@[simp] theorem startBlock_scale (b : Block) : (startBlock b).scale = BitVec.ofNat 32 (deriveScale b.cfg) := rfl
@[simp] theorem startBlock_speed (b : Block) : (startBlock b).speed = 0 := rfl
@[simp] theorem startBlock_target (b : Block) : (startBlock b).target = 0 := rfl
@[simp] theorem startBlock_err (b : Block) : (startBlock b).err = 0 := rfl
@[simp] theorem startBlock_prevErr (b : Block) : (startBlock b).prevErr = 0 := rfl
@[simp] theorem startBlock_integ (b : Block) : (startBlock b).integ = 0 := rfl
@[simp] theorem startBlock_duty (b : Block) : (startBlock b).duty = 0 := rfl
@[simp] theorem startBlock_cmp (b : Block) : (startBlock b).cmp = 0 := rfl
@[simp] theorem startBlock_cfg (b : Block) : (startBlock b).cfg = b.cfg := rfl

/-! ## edgeBlock -/

@[simp] theorem edgeBlock_mode (b : Block) (raw : Raw) : (edgeBlock b raw).mode = (extendBlock b raw).mode := rfl
@[simp] theorem edgeBlock_ovfPend (b : Block) (raw : Raw) : (edgeBlock b raw).ovfPend = (extendBlock b raw).ovfPend := rfl
@[simp] theorem edgeBlock_wrapOverrun (b : Block) (raw : Raw) : (edgeBlock b raw).wrapOverrun = (extendBlock b raw).wrapOverrun := rfl
@[simp] theorem edgeBlock_prevValid (b : Block) (raw : Raw) : (edgeBlock b raw).prevValid = true := rfl
@[simp] theorem edgeBlock_cfgErr (b : Block) (raw : Raw) : (edgeBlock b raw).cfgErr = (extendBlock b raw).cfgErr := rfl
@[simp] theorem edgeBlock_rollover (b : Block) (raw : Raw) : (edgeBlock b raw).rollover = (extendBlock b raw).rollover := rfl
@[simp] theorem edgeBlock_prevTs (b : Block) (raw : Raw) : (edgeBlock b raw).prevTs = extendTs b raw := rfl
@[simp] theorem edgeBlock_scale (b : Block) (raw : Raw) : (edgeBlock b raw).scale = (extendBlock b raw).scale := rfl
@[simp] theorem edgeBlock_speed (b : Block) (raw : Raw) : (edgeBlock b raw).speed = rpmUpdate b (duration b (extendTs b raw)) := rfl
@[simp] theorem edgeBlock_target (b : Block) (raw : Raw) : (edgeBlock b raw).target = (extendBlock b raw).target := rfl
@[simp] theorem edgeBlock_err (b : Block) (raw : Raw) : (edgeBlock b raw).err = (extendBlock b raw).err := rfl
@[simp] theorem edgeBlock_prevErr (b : Block) (raw : Raw) : (edgeBlock b raw).prevErr = (extendBlock b raw).prevErr := rfl
@[simp] theorem edgeBlock_integ (b : Block) (raw : Raw) : (edgeBlock b raw).integ = (extendBlock b raw).integ := rfl
@[simp] theorem edgeBlock_duty (b : Block) (raw : Raw) : (edgeBlock b raw).duty = (extendBlock b raw).duty := rfl
@[simp] theorem edgeBlock_cmp (b : Block) (raw : Raw) : (edgeBlock b raw).cmp = (extendBlock b raw).cmp := rfl
@[simp] theorem edgeBlock_cfg (b : Block) (raw : Raw) : (edgeBlock b raw).cfg = (extendBlock b raw).cfg := rfl

/-! ## Block.reset -/

@[simp] theorem Block.reset_mode : Block.reset.mode = .unconfigured := rfl
@[simp] theorem Block.reset_ovfPend : Block.reset.ovfPend = false := rfl
@[simp] theorem Block.reset_wrapOverrun : Block.reset.wrapOverrun = false := rfl
@[simp] theorem Block.reset_prevValid : Block.reset.prevValid = false := rfl
@[simp] theorem Block.reset_cfgErr : Block.reset.cfgErr = 0 := rfl
@[simp] theorem Block.reset_rollover : Block.reset.rollover = 0 := rfl
@[simp] theorem Block.reset_prevTs : Block.reset.prevTs = 0 := rfl
@[simp] theorem Block.reset_scale : Block.reset.scale = 0 := rfl
@[simp] theorem Block.reset_speed : Block.reset.speed = 0 := rfl
@[simp] theorem Block.reset_target : Block.reset.target = 0 := rfl
@[simp] theorem Block.reset_err : Block.reset.err = 0 := rfl
@[simp] theorem Block.reset_prevErr : Block.reset.prevErr = 0 := rfl
@[simp] theorem Block.reset_integ : Block.reset.integ = 0 := rfl
@[simp] theorem Block.reset_duty : Block.reset.duty = 0 := rfl
@[simp] theorem Block.reset_cmp : Block.reset.cmp = 0 := rfl
@[simp] theorem Block.reset_cfg : Block.reset.cfg = Cfg.reset := rfl

/-! ## The ports -/

@[simp] theorem idle_block (s : State) : (idle s).block = s.block := rfl
@[simp] theorem idle_resp (s : State) : (idle s).resp = none := rfl
@[simp] theorem idle_cmpStrobe (s : State) : (idle s).cmpStrobe = false := rfl
@[simp] theorem idle_pins (s : State) : (idle s).pins = s.pins := rfl
@[simp] theorem applyReset_block (s : State) : (applyReset s).block = Block.reset := rfl
@[simp] theorem applyReset_resp (s : State) : (applyReset s).resp = none := rfl
@[simp] theorem applyReset_cmpStrobe (s : State) : (applyReset s).cmpStrobe = false := rfl
@[simp] theorem applyReset_pins (s : State) : (applyReset s).pins = .idle := rfl
@[simp] theorem transferred_block (s : State) : (transferred s).block = s.block := rfl
@[simp] theorem transferred_resp (s : State) : (transferred s).resp = s.resp := rfl
@[simp] theorem transferred_cmpStrobe (s : State) : (transferred s).cmpStrobe = s.cmpStrobe := rfl
@[simp] theorem transferred_pins (s : State) : (transferred s).pins = .idle := rfl
@[simp] theorem withFetchWord_block (s : State) (n w : Nat) : (s.withFetchWord n w).block = s.block := rfl
@[simp] theorem withFetchWord_pins (s : State) (n w : Nat) :
    (s.withFetchWord n w).pins = .op (BitVec.ofNat 40 (w % 2 ^ n)) := rfl

@[simp] theorem respondOk_block (b : Block) (d : Data) : (respondOk b d).block = b := rfl
@[simp] theorem respondOk_resp (b : Block) (d : Data) : (respondOk b d).resp = ⟨.ok, d⟩ := rfl
@[simp] theorem respondOk_strobe (b : Block) (d : Data) : (respondOk b d).strobe = false := rfl
@[simp] theorem raiseError_block (c : Code) (d : Data) (b : Block) : (raiseError c d b).block = b := rfl
@[simp] theorem raiseError_resp (c : Code) (d : Data) (b : Block) : (raiseError c d b).resp = ⟨c, d⟩ := rfl
@[simp] theorem raiseError_strobe (c : Code) (d : Data) (b : Block) : (raiseError c d b).strobe = false := rfl

/-! ## The configuration file -/

/-- A register reads as what was written to it. -/
theorem Cfg.get_set_same (c : Cfg) (r : CfgReg) (v : Data) : (c.set r v).get r = v := by cases r <;> rfl

/-- A write leaves every other register alone. -/
theorem Cfg.get_set_other (c : Cfg) (r r' : CfgReg) (v : Data) (h : r' ≠ r) : (c.set r v).get r' = c.get r' := by
  cases r <;> cases r' <;> first | rfl | exact absurd rfl h

/-- Equal registers are an equal file. -/
theorem Cfg.ext_get (c c' : Cfg) (h : ∀ r, c.get r = c'.get r) : c = c' := by
  have h0 := h .kp
  have h1 := h .ki
  have h2 := h .kd
  have h3 := h .gainDen
  have h4 := h .maxSpeed
  have h5 := h .ppr
  have h6 := h .gearRatio
  have h7 := h .tickFreq
  have h8 := h .actPeriod
  have h9 := h .lowThreshold
  cases c
  cases c'
  simp only [Cfg.get] at h0 h1 h2 h3 h4 h5 h6 h7 h8 h9
  simp only [h0, h1, h2, h3, h4, h5, h6, h7, h8, h9]

end Sys2Proof.Machine
end

