-- ==== Sys2Proof/Laws/Step.lean ====
section
/-! SUPPORT. What an operation and a step can do, said once. -/

namespace Sys2Proof.Machine

/-- What one operation answers, as a function of the block (R12: a step function takes the state and one word and gives
the new state and one response). -/
def answerOf (i : Instr) (b : Block) : Answer :=
  match i with
  | .wrap => whenRunning b (respondOk (recordWrap b) 0)
  | .edge raw => whenRunning b (respondOk (edgeBlock b raw) (extendTs b raw))
  | .ovfchk => whenRunning b (if b.ovfPend then respondOk (consumeWrap b) 1 else respondOk b 0)
  | .tick => whenRunning b (tickAnswer b)
  | .settgt v =>
    whenRunning b (respondOk { b with target := min32 v b.cfg.maxSpeed } (min32 v b.cfg.maxSpeed))
  | .getspd => respondOk b b.speed
  | .getduty => respondOk b (zext32 b.duty)
  | .getstat => respondOk b (status b)
  | .wrcfgKp v => whenUnconfigured b (respondOk { b with cfg := b.cfg.set .kp v } 0)
  | .wrcfgKi v => whenUnconfigured b (respondOk { b with cfg := b.cfg.set .ki v } 0)
  | .wrcfgKd v => whenUnconfigured b (respondOk { b with cfg := b.cfg.set .kd v } 0)
  | .wrcfgGainDen v => whenUnconfigured b (respondOk { b with cfg := b.cfg.set .gainDen v } 0)
  | .wrcfgMaxSpeed v => whenUnconfigured b (respondOk { b with cfg := b.cfg.set .maxSpeed v } 0)
  | .wrcfgPpr v => whenUnconfigured b (respondOk { b with cfg := b.cfg.set .ppr v } 0)
  | .wrcfgGearRatio v => whenUnconfigured b (respondOk { b with cfg := b.cfg.set .gearRatio v } 0)
  | .wrcfgTickFreq v => whenUnconfigured b (respondOk { b with cfg := b.cfg.set .tickFreq v } 0)
  | .wrcfgActPeriod v => whenUnconfigured b (respondOk { b with cfg := b.cfg.set .actPeriod v } 0)
  | .wrcfgLowThreshold v => whenUnconfigured b (respondOk { b with cfg := b.cfg.set .lowThreshold v } 0)
  | .init => whenUnconfigured b (initAnswer b)

/-- Every meaning delivers one answer, computed from the block alone. -/
theorem exec_eq_deliver (i : Instr) (s : State) : exec i s = deliver (answerOf i s.block) s := by
  cases i <;> rfl

/-- The state an operation leaves. -/
theorem exec_next (i : Instr) (s t : State) (h : exec i s = .next t) :
    t = { s with block := (answerOf i s.block).block, resp := some (answerOf i s.block).resp,
                 cmpStrobe := (answerOf i s.block).strobe } := by
  rw [exec_eq_deliver, deliver] at h
  exact (Host.Outcome.next.inj h).symm

theorem whenRunning_running (b : Block) (a : Answer) (h : b.mode = .running) : whenRunning b a = a := by
  simp [whenRunning, h]

theorem whenRunning_other (b : Block) (a : Answer) (h : b.mode ≠ .running) :
    whenRunning b a = raiseError .notRunning 0 b := by
  simp [whenRunning, h]

theorem whenUnconfigured_unconfigured (b : Block) (a : Answer) (h : b.mode = .unconfigured) :
    whenUnconfigured b a = a := by
  simp [whenUnconfigured, h]

theorem whenUnconfigured_other (b : Block) (a : Answer) (h : b.mode ≠ .unconfigured) :
    whenUnconfigured b a = raiseError .cfgLocked 0 b := by
  simp [whenUnconfigured, h]

/-- INIT's two outcomes (R110). -/
theorem initAnswer_cases (b : Block) :
    (checkCfg b.cfg = 0 ∧ initAnswer b = respondOk (startBlock b) (BitVec.ofNat 32 (deriveScale b.cfg))) ∨
    (checkCfg b.cfg ≠ 0 ∧ initAnswer b =
      raiseError .cfgError (zext32 (checkCfg b.cfg)) { b with cfgErr := checkCfg b.cfg, mode := .fault }) := by
  by_cases h : checkCfg b.cfg = 0
  · exact .inl ⟨h, by simp [initAnswer, h]⟩
  · exact .inr ⟨h, by unfold initAnswer; exact if_pos h⟩

/-- Everything a step can do: nothing is offered; a legal word; an illegal word; a reset. It always answers a next
state. -/
theorem step_cases (s : State) :
    (s.pins = .idle ∧ step s = .next (idle s)) ∨
    (∃ w i, s.pins = .op w ∧ decode w = .ok i ∧
      step s = .next { block := (answerOf i s.block).block, resp := some (answerOf i s.block).resp,
                       cmpStrobe := (answerOf i s.block).strobe, pins := .idle }) ∨
    (∃ w why, s.pins = .op w ∧ decode w = .error why ∧
      step s = .next { block := s.block, resp := some ⟨.illegalOp, 0⟩, cmpStrobe := false, pins := .idle }) ∨
    (s.pins ≠ .idle ∧ (∀ w, s.pins ≠ .op w) ∧ step s = .next State.reset) := by
  cases hp : s.pins with
  | idle => exact .inl ⟨rfl, by simp [step, takeInput, hp]⟩
  | op w =>
    cases hd : decode w with
    | ok i =>
      exact .inr (.inl ⟨w, i, rfl, hd, by simp [step, takeInput, hp, hd, exec_eq_deliver, deliver]⟩)
    | error why =>
      refine .inr (.inr (.inl ⟨w, why, rfl, hd, ?_⟩))
      simp [step, takeInput, hp, hd, answerIllegal, deliver, raiseError]
  | rst => exact .inr (.inr (.inr ⟨by simp, by simp, by simp [step, takeInput, hp, applyReset]⟩))
  | abandoned w => exact .inr (.inr (.inr ⟨by simp, by simp, by simp [step, takeInput, hp, applyReset]⟩))

/-- A step after the environment has set the pins: what it answers depends on the block and the pins alone. -/
theorem step_pins_eq (s : State) (e : PortInput) :
    step { s with pins := e } = step { block := s.block, resp := none, cmpStrobe := false, pins := e } := by
  cases e with
  | idle => rfl
  | op w => cases hd : decode w <;> simp [step, takeInput, hd, exec_eq_deliver, answerIllegal, deliver, transferred]
  | rst => rfl
  | abandoned w => rfl

/-- The state after one word: the answer of its operation, or of an illegal word. -/
theorem afterWord_eq (s : State) (w : OpWord) :
    afterWord s w =
      match decode w with
      | .ok i => { block := (answerOf i s.block).block, resp := some (answerOf i s.block).resp,
                   cmpStrobe := (answerOf i s.block).strobe, pins := .idle }
      | .error _ => { block := s.block, resp := some ⟨.illegalOp, 0⟩, cmpStrobe := false, pins := .idle } := by
  cases hd : decode w with
  | ok i => simp [afterWord, step, takeInput, hd, exec_eq_deliver, deliver]
  | error why => simp [afterWord, step, takeInput, hd, answerIllegal, deliver, raiseError]

/-- A transferred word is off the pins. -/
theorem afterWord_pins (s : State) (w : OpWord) : (afterWord s w).pins = .idle := by
  rw [afterWord_eq]
  split <;> rfl

theorem afterWords_append (s : State) (us vs : List OpWord) :
    afterWords s (us ++ vs) = afterWords (afterWords s us) vs := by
  induction us generalizing s with
  | nil => rfl
  | cons u us ih => exact ih (afterWord s u)

/-- An invariant of one word is an invariant of every sequence of words. -/
theorem afterWords_keeps (P : State → Prop) (h : ∀ s w, P s → P (afterWord s w)) (s : State) (ws : List OpWord)
    (h0 : P s) : P (afterWords s ws) := by
  induction ws generalizing s with
  | nil => exact h0
  | cons w ws ih => exact ih _ (h s w h0)

end Sys2Proof.Machine
end

