-- ==== Sys2Proof/Laws/TimeExtender.lean ====
section
/-! SUPPORT. EXTEND, DURATION and RPM_UPDATE: one lemma each for everything they can do (R67, R76, R77). -/

namespace Sys2Proof.Machine

/-- The two branches of EXTEND (R67). -/
theorem extendBlock_cases (b : Block) (raw : Raw) :
    (b.ovfPend = true ∧ raw.toNat < b.cfg.lowThreshold.toNat ∧
      extendBlock b raw = { b with rollover := b.rollover + 1, ovfPend := false }) ∨
    (¬ (b.ovfPend = true ∧ raw.toNat < b.cfg.lowThreshold.toNat) ∧ extendBlock b raw = b) := by
  have hz : (zext32 raw).toNat = raw.toNat := zext32_toNat raw (by decide)
  by_cases h : b.ovfPend = true ∧ raw.toNat < b.cfg.lowThreshold.toNat
  · refine .inl ⟨h.1, h.2, ?_⟩
    simp only [extendBlock, edgeConsumes, hz, h.1, h.2, decide_true, Bool.and_self, if_true, consumeWrap,
      uwrap16_succ]
  · refine .inr ⟨h, ?_⟩
    have : edgeConsumes b raw = false := by
      cases hp : b.ovfPend <;> simp_all [edgeConsumes]
    simp [extendBlock, this]

/-- The timestamp is the rollover count in the high half and the raw value in the low half, as numbers (R67). -/
theorem extendTs_toNat (b : Block) (raw : Raw) :
    (extendTs b raw).toNat = (extendBlock b raw).rollover.toNat * 65536 + raw.toNat := by
  have h1 := (extendBlock b raw).rollover.isLt
  have h2 := raw.isLt
  have hs : (extendBlock b raw).rollover.toNat <<< 16 < 2 ^ 32 := by rw [Nat.shiftLeft_eq]; omega
  simp only [extendTs, BitVec.toNat_or, BitVec.toNat_shiftLeft, zext32_toNat _ (show 16 ≤ 32 by decide)]
  rw [Nat.mod_eq_of_lt hs, ← Nat.shiftLeft_add_eq_or_of_lt h2, Nat.shiftLeft_eq]

/-- DURATION (R76). -/
theorem duration_eq (b : Block) (ts : Data) : duration b ts = if b.prevValid then ts - b.prevTs else 0 := by
  simp [duration, uwrap32_sub]

/-- RPM_UPDATE (R77). -/
theorem rpmUpdate_toNat (b : Block) (d : Data) :
    (rpmUpdate b d).toNat = if d = 0 then b.speed.toNat else b.scale.toNat / d.toNat := by
  unfold rpmUpdate
  split
  · rfl
  · rename_i h
    have hd : d.toNat ≠ 0 := fun h0 => h (BitVec.eq_of_toNat_eq (by simpa using h0))
    have hle : b.scale.toNat / d.toNat ≤ b.scale.toNat := Nat.div_le_self _ _
    have hlt := b.scale.isLt
    rw [fdiv_of_pos _ _ hd, BitVec.toNat_ofNat, Nat.mod_eq_of_lt (by omega)]

end Sys2Proof.Machine
end

