-- ==== Sys2Proof/Tests/Slice0.lean ====
section
/-! SUPPORT. The model's own tests. Expected values are those of spec/95_test_vectors.md (the id stands in each comment)
or of the worked encodings of R61; none is the model's own answer. Then one witness for the hypotheses of every
statement. -/

namespace Sys2Proof.Machine.Tests

/-! ## Sample states -/

/-- CFG-A of 95_test_vectors.md. -/
def cfgA : Cfg := ⟨10, 1, 10, 10, 200, 512, 6, 1000000, 2000, 0x8000⟩

/-- "State after SETUP". -/
def runA : Block := { Block.reset with mode := .running, scale := 19531, cfg := cfgA }

/-- The state after H4: a rejected INIT. -/
def faultA : Block := { Block.reset with mode := .fault, cfgErr := 3 }

/-- A block with nothing on its ports. -/
def at_ (b : Block) : State := ⟨b, none, false, .idle⟩

/-- A block with one word on its port. -/
def offered (b : Block) (w : OpWord) : State := ⟨b, none, false, .op w⟩

/-- The next state, if there is one. -/
def next? (o : Host.Outcome State Fault Refusal) : Option State :=
  match o with
  | .next t => some t
  | .fault _ => none
  | .refused _ => none

/-- What a test looks at after one operation. -/
def view {α : Type} (i : Instr) (b : Block) (f : Block → α) : Option (α × Option RespWord) :=
  (next? (exec i (at_ b))).map fun t => (f t.block, t.respWord)

/-! ## Well-formedness: an illegal word for each check (section 7 of 95_test_vectors.md) -/

theorem test_wf_unassigned_opcode : opcodeAssigned 0x0000000000 = false ∧ opcodeAssigned 0xB000000000 = false := by decide
theorem test_wf_cfg_index : cfgIndexLegal 0x9A00000000 = false ∧ cfgIndexLegal 0x9F00000000 = false := by decide
theorem test_wf_idx : idxLegal 0x1100000000 = false ∧ idxLegal 0x510000001E = false := by decide
theorem test_wf_data : dataLegal 0x1000000001 = false ∧ dataLegal 0xA000000001 = false := by decide
theorem test_wf_edge : edgeLegal 0x2000010000 = false := by decide
theorem test_wf_accepts : OpWord.legal 0x9900008000 = true ∧ OpWord.legal 0x200000FFF0 = true := by decide
/-- The decoder and the legality predicate both refuse the word. -/
def refused (w : OpWord) : Bool := (decodeTableWord 40 w.toNat).isNone && !OpWord.legal w

theorem test_illegal_opcodes :
    ([0x0000000000, 0xB000000000, 0xFFFFFFFFFF, 0x9A00000000, 0x9F00000000] : List OpWord).all refused = true := by decide
theorem test_illegal_must_be_zero :
    ([0x1000000001, 0x1100000000, 0x2000010000, 0x2100000010, 0x6100000000, 0x510000001E] : List OpWord).all refused =
      true := by decide

/-! ## Decoding: a word of every row, from section 7 of 95_test_vectors.md -/

theorem test_decode_wrap : decodeTableWord 40 0x1000000000 = some .wrap := by decide
theorem test_decode_edge : decodeTableWord 40 0x200000FFF0 = some (.edge 0xFFF0) := by decide
theorem test_decode_ovfchk : decodeTableWord 40 0x3000000000 = some .ovfchk := by decide
theorem test_decode_tick : decodeTableWord 40 0x4000000000 = some .tick := by decide
theorem test_decode_settgt : decodeTableWord 40 0x500000001E = some (.settgt 30) := by decide
theorem test_decode_getspd : decodeTableWord 40 0x6000000000 = some .getspd := by decide
theorem test_decode_getduty : decodeTableWord 40 0x7000000000 = some .getduty := by decide
theorem test_decode_getstat : decodeTableWord 40 0x8000000000 = some .getstat := by decide
theorem test_decode_wrcfgKp : decodeTableWord 40 0x900000000A = some (.wrcfgKp 10) := by decide
theorem test_decode_wrcfgKi : decodeTableWord 40 0x9100000001 = some (.wrcfgKi 1) := by decide
theorem test_decode_wrcfgKd : decodeTableWord 40 0x920000000A = some (.wrcfgKd 10) := by decide
theorem test_decode_wrcfgGainDen : decodeTableWord 40 0x930000000A = some (.wrcfgGainDen 10) := by decide
theorem test_decode_wrcfgMaxSpeed : decodeTableWord 40 0x94000000C8 = some (.wrcfgMaxSpeed 200) := by decide
theorem test_decode_wrcfgPpr : decodeTableWord 40 0x9500000200 = some (.wrcfgPpr 512) := by decide
theorem test_decode_wrcfgGearRatio : decodeTableWord 40 0x9600000006 = some (.wrcfgGearRatio 6) := by decide
theorem test_decode_wrcfgTickFreq : decodeTableWord 40 0x97000F4240 = some (.wrcfgTickFreq 1000000) := by decide
theorem test_decode_wrcfgActPeriod : decodeTableWord 40 0x98000007D0 = some (.wrcfgActPeriod 2000) := by decide
theorem test_decode_wrcfgLowThreshold :
    decodeTableWord 40 0x9900008000 = some (.wrcfgLowThreshold 0x8000) := by decide
theorem test_decode_init : decodeTableWord 40 0xA000000000 = some .init := by decide

/-! ## Operations -/

/-- T2. -/
theorem test_wrap_overrun : view .wrap { runA with ovfPend := true, rollover := 5 }
    (fun b => (b.ovfPend, b.rollover, b.wrapOverrun, status b)) =
    some ((true, 5, true, 0x15), some 0x000000000) := by decide
/-- T13. -/
theorem test_wrap_unconfigured : view .wrap Block.reset (fun b => b.ovfPend) = some (false, some 0x200000000) := by decide
/-- T5. -/
theorem test_ovfchk_wraps : view .ovfchk { runA with ovfPend := true, rollover := 0xFFFF }
    (fun b => (b.ovfPend, b.rollover)) = some ((false, 0), some 0x000000001) := by decide
/-- T4. -/
theorem test_ovfchk_nothing : view .ovfchk { runA with rollover := 6 } (fun b => b.rollover) =
    some (6, some 0x000000000) := by decide
/-- E9: the wrap of the 32-bit time base is absorbed. -/
theorem test_edge_time_base_wraps : view (.edge 0x0100)
    { runA with rollover := 0xFFFF, ovfPend := true, prevValid := true, prevTs := 0xFFFFFF00 }
    (fun b => (b.rollover, b.ovfPend, b.prevTs, b.speed)) = some ((0, false, 0x100, 38), some 0x000000100) := by decide
/-- T8: not below the threshold. -/
theorem test_edge_at_threshold : view (.edge 0x8000) { runA with ovfPend := true }
    (fun b => (b.rollover, b.ovfPend)) = some ((0, true), some 0x000008000) := by decide
/-- K4: rawOutput 100.1 saturates and restores the accumulator. -/
theorem test_tick_high : view .tick { runA with target := 50, integ := -49 }
    (fun b => (b.duty, b.integ, b.prevErr, b.cmp)) = some ((100, -49, 50, 2000), some 0x0000007D0) := by decide
/-- K10: rawOutput 62.9 is floored. -/
theorem test_tick_floor : view .tick { runA with target := 30, integ := -1 }
    (fun b => (b.duty, b.integ, b.err, b.cmp)) = some ((62, 29, 30, 1240), some 0x0000004D8) := by decide
/-- V3. -/
theorem test_settgt_clamps : view (.settgt 201) runA (fun b => b.target) = some (200, some 0x0000000C8) := by decide
/-- V6. -/
theorem test_settgt_fault : view (.settgt 30) faultA (fun b => b.target) = some (0, some 0x200000000) := by decide
/-- H19. -/
theorem test_getspd : view .getspd { runA with speed := 97 } (fun b => b.speed) = some (97, some 0x000000061) := by decide
/-- H18. -/
theorem test_getduty : view .getduty { runA with duty := 63, cmp := 1260 } (fun b => b.duty) =
    some (63, some 0x00000003F) := by decide
/-- H5. -/
theorem test_getstat_fault : view .getstat faultA (fun b => b.cfgErr) = some (3, some 0x000000302) := by decide
/-- R107's worked example. -/
theorem test_getstat_running : view .getstat { runA with prevValid := true } (fun b => b.mode) =
    some (.running, some 0x000000009) := by decide
/-- H12. -/
theorem test_wrcfgKp : view (.wrcfgKp 9) { Block.reset with cfg := { Cfg.reset with kp := 7 } } (fun b => b.cfg) =
    some ({ Cfg.reset with kp := 9 }, some 0x000000000) := by decide
/-- H13. -/
theorem test_wrcfgKp_locked : view (.wrcfgKp 5) runA (fun b => b.cfg.kp) = some (10, some 0x300000000) := by decide
/-- R108's worked example. -/
theorem test_wrcfgKi : view (.wrcfgKi 1) Block.reset (fun b => b.cfg) =
    some ({ Cfg.reset with ki := 1 }, some 0x000000000) := by decide
theorem test_wrcfgKd : view (.wrcfgKd 10) Block.reset (fun b => b.cfg) =
    some ({ Cfg.reset with kd := 10 }, some 0x000000000) := by decide
theorem test_wrcfgGainDen : view (.wrcfgGainDen 10) Block.reset (fun b => b.cfg) =
    some ({ Cfg.reset with gainDen := 10 }, some 0x000000000) := by decide
theorem test_wrcfgMaxSpeed : view (.wrcfgMaxSpeed 200) Block.reset (fun b => b.cfg) =
    some ({ Cfg.reset with maxSpeed := 200 }, some 0x000000000) := by decide
/-- H15. -/
theorem test_wrcfgPpr_fault : view (.wrcfgPpr 512) faultA (fun b => b.cfg) =
    some (Cfg.reset, some 0x300000000) := by decide
theorem test_wrcfgPpr : view (.wrcfgPpr 512) Block.reset (fun b => b.cfg) =
    some ({ Cfg.reset with ppr := 512 }, some 0x000000000) := by decide
theorem test_wrcfgGearRatio : view (.wrcfgGearRatio 6) Block.reset (fun b => b.cfg) =
    some ({ Cfg.reset with gearRatio := 6 }, some 0x000000000) := by decide
theorem test_wrcfgTickFreq : view (.wrcfgTickFreq 1000000) Block.reset (fun b => b.cfg) =
    some ({ Cfg.reset with tickFreq := 1000000 }, some 0x000000000) := by decide
theorem test_wrcfgActPeriod : view (.wrcfgActPeriod 2000) Block.reset (fun b => b.cfg) =
    some ({ Cfg.reset with actPeriod := 2000 }, some 0x000000000) := by decide
/-- R36: all 32 bits are stored. -/
theorem test_wrcfgLowThreshold : view (.wrcfgLowThreshold 0xFFFFFFFF) Block.reset (fun b => b.cfg) =
    some ({ Cfg.reset with lowThreshold := 0xFFFFFFFF }, some 0x000000000) := by decide
/-- R110's worked example. -/
theorem test_init_accepts : view .init { Block.reset with cfg := cfgA } id = some (runA, some 0x000004C4B) := by decide
/-- H9: two causes together. -/
theorem test_init_two_causes : view .init
    { Block.reset with cfg := { Cfg.reset with ppr := 1, gearRatio := 1, tickFreq := 71582789 } }
    (fun b => (b.mode, b.cfgErr)) = some ((.fault, 6), some 0x400000006) := by decide

/-! ## Steps, the strobe, reset, text -/

/-- H20: an illegal word in RUNNING mode is ILLEGAL_OP. -/
theorem test_step_illegal : (next? (step (offered runA 0x9A00000000))).map (fun t => (t.block, t.respWord, t.pins)) =
    some (runA, some 0x100000000, .idle) := by decide
/-- K1, on the port: the strobe is pulsed. -/
theorem test_step_tick : (next? (step (offered { runA with target := 30 } 0x4000000000))).map
    (fun t => (t.cmpOut, t.cmpStrobe, t.respWord)) = some (1260, true, some 0x0000004EC) := by decide
/-- The first step after reset on a word supplied from outside: H4. -/
theorem test_fetch_word : (next? (step (State.reset.withFetchWord 40 0xA000000000))).map
    (fun t => (t.block.mode, t.respWord)) = some (.fault, some 0x400000003) := by decide
/-- A reset during an operation (R140). -/
theorem test_step_abandoned : next? (step ⟨runA, none, true, .abandoned 0x4000000000⟩) =
    some ⟨Block.reset, none, false, .idle⟩ := by decide
/-- R59: `EDGE 0xFFF0  # comment`. -/
theorem test_text_edge : readLine ['E', 'D', 'G', 'E', ' ', '0', 'x', 'F', 'F', 'F', '0', ' ', '#', 'x'] =
    some [.edge 0xFFF0] := by decide
/-- R59: `WRCFG KP, 10`. -/
theorem test_text_wrcfg : readLine ['W', 'R', 'C', 'F', 'G', ' ', 'K', 'P', ',', ' ', '1', '0'] =
    some [.wrcfg 0 10] := by decide
/-- The eleven words of SETUP for CFG-A (95_test_vectors.md). -/
theorem test_setup_words : assemble (.setup ⟨10, 1, 10, 10, 200, 512, 6, 1000000, 2000, 0x8000⟩) =
    some (([0x900000000A, 0x9100000001, 0x920000000A, 0x930000000A, 0x94000000C8, 0x9500000200, 0x9600000006,
      0x97000F4240, 0x98000007D0, 0x9900008000, 0xA000000000] : List OpWord).map PortInput.op) := by decide

/-! ## Witnesses: states and operands that meet the hypotheses of each statement, clause by clause -/

theorem witness_EncodeOfDecode : decode 0x200000FFFF = .ok (.edge 0xFFFF) ∧ decode 0x99FFFFFFFF = .ok (.wrcfgLowThreshold 0xFFFFFFFF) :=
  ⟨rfl, rfl⟩
theorem witness_OpcodeMapAgreesWithDecoder :
    (plainRow 0x1000000000 ∈ opcodeRows ∧ (plainRow 0x1000000000).selects 0x1000000000 = true) ∧
    decode 0x200000FFFF = .ok (.edge 0xFFFF) ∧ decode 0x2000010000 = .error .edgeHighNotZero :=
  ⟨by decide, rfl, rfl⟩
theorem witness_ResponseWordFields : Response.word ⟨.ok, 63⟩ = Response.word ⟨.ok, 63⟩ := rfl
theorem witness_StepRunsDecodedOperation :
    (offered runA 0x4000000000).pins = .op 0x4000000000 ∧ decode 0x4000000000 = .ok .tick := ⟨rfl, rfl⟩
theorem witness_IllegalWordIsAnswered :
    (offered runA 0x9A00000000).pins = .op 0x9A00000000 ∧ decode 0x9A00000000 = .error .noSuchCfgRegister :=
  ⟨rfl, rfl⟩
theorem witness_EveryWordIsAnswered : (offered runA 0xFFFFFFFFFF).pins = .op 0xFFFFFFFFFF := rfl

/-- A step on an offered word that is answered with `code`. -/
def answersWith (b : Block) (w : OpWord) (code : Code) : Prop :=
  ∃ t r, step (offered b w) = .next t ∧ t.resp = some r ∧ r.code = code

theorem witness_ErrorsChangeNothing :
    answersWith runA 0 .illegalOp ∧ answersWith faultA 0x4000000000 .notRunning ∧
    answersWith runA 0xA000000000 .cfgLocked ∧ answersWith Block.reset 0xA000000000 .cfgError :=
  ⟨⟨_, _, rfl, rfl, rfl⟩, ⟨_, _, rfl, rfl, rfl⟩, ⟨_, _, rfl, rfl, rfl⟩, ⟨_, _, rfl, rfl, rfl⟩⟩
theorem witness_IdleHoldsTheState : (at_ runA).pins = .idle := rfl
theorem witness_ResetFromEveryState :
    (State.mk runA none false .rst).pins = .rst ∧
    (State.mk runA none false (.abandoned 0x4000000000)).pins = .abandoned 0x4000000000 := ⟨rfl, rfl⟩
theorem witness_ResetValues : (State.mk runA none false .rst).pins = .rst := rfl

def runT : Block := { runA with target := 30 }
theorem runA_inv : runA.Inv := by constructor <;> decide
theorem runT_inv : runT.Inv := by constructor <;> decide
theorem faultA_inv : faultA.Inv := by constructor <;> decide

theorem witness_WrapExecutes : (at_ runA).block.mode = .running ∧ (at_ faultA).block.mode ≠ .running ∧
    (0x1000000001 : OpWord).toNat / 2 ^ 36 = 1 ∧ (0x1000000001 : OpWord) ≠ 0x1000000000 := by decide
theorem witness_OvfchkExecutes :
    (runA.mode = .running ∧ { runA with ovfPend := true }.ovfPend = true) ∧ (runA.mode = .running ∧ runA.ovfPend = false) ∧
    faultA.mode ≠ .running ∧ (0x3100000000 : OpWord).toNat / 2 ^ 36 = 3 ∧ (0x3100000000 : OpWord) ≠ 0x3000000000 := by
  decide
theorem witness_ExtendGivesTimestamp :
    ({ runA with ovfPend := true }.ovfPend = true ∧ (0x7FFF : Raw).toNat < runA.cfg.lowThreshold.toNat) ∧
    ¬ ({ runA with ovfPend := true }.ovfPend = true ∧ (0x8000 : Raw).toNat < runA.cfg.lowThreshold.toNat) ∧
    Cfg.reset.lowThreshold = 0 ∧ 0x10000 ≤ ({ cfgA with lowThreshold := 0x10000 } : Cfg).lowThreshold.toNat := by decide
/-- E9, with every variable of the statement. -/
theorem witness_EdgeExecutes :
    ∃ (s : State) (roll1 : Nat) (ts d : BitVec 32) (takes : Bool), s.block.mode = .running ∧
      takes = (s.block.ovfPend && decide ((0x0100 : Raw).toNat < s.block.cfg.lowThreshold.toNat)) ∧
      roll1 = (if takes then (s.block.rollover.toNat + 1) % 2 ^ 16 else s.block.rollover.toNat) ∧
      ts = BitVec.ofNat 32 (roll1 * 65536 + (0x0100 : Raw).toNat) ∧
      d = (if s.block.prevValid then BitVec.ofNat 32 ((ts.toNat + 2 ^ 32 - s.block.prevTs.toNat) % 2 ^ 32) else 0) ∧
      d = 512 ∧ faultA.mode ≠ .running ∧ (0x2000010000 : OpWord).toNat / 2 ^ 36 = 2 ∧
      2 ^ 16 ≤ (0x2000010000 : OpWord).toNat % 2 ^ 36 :=
  ⟨at_ { runA with rollover := 0xFFFF, ovfPend := true, prevValid := true, prevTs := 0xFFFFFF00 }, 0, 0x100, 512, true,
    by decide⟩
theorem witness_RepeatedEdgeHoldsSpeed : (at_ runA).block.mode = .running := rfl

/-- The block before a second EDGE (E3). -/
def edgeA : Block := { runA with prevValid := true, prevTs := 0x1000 }

theorem witness_SpeedIsNonIncreasingInDuration :
    duration edgeA (extendTs edgeA 0x10C8) ≠ 0 ∧
    (duration edgeA (extendTs edgeA 0x10C8)).toNat < (duration edgeA (extendTs edgeA 0xFFFF)).toNat ∧
    edgeA.scale.toNat < (duration edgeA (extendTs edgeA 0xFFFF)).toNat ∧
    (∃ t, exec (.edge 0x10C8) (at_ edgeA) = .next t) ∧ (∃ t, exec (.edge 0xFFFF) (at_ edgeA) = .next t) :=
  ⟨by decide, by decide, by decide, ⟨_, rfl⟩, ⟨_, rfl⟩⟩
theorem witness_WrapsAreConsumedAtMostOnce :
    ∃ t u, step (offered { runA with ovfPend := true } 0x3000000000) = .next t ∧ t.block.rollover ≠ runA.rollover ∧
      step (offered runA 0x1000000000) = .next u ∧ runA.ovfPend = false ∧ u.block.ovfPend = true :=
  ⟨_, _, rfl, by decide, rfl, rfl, rfl⟩
/-- GAIN_DEN, PPR and GEAR_RATIO 1, INIT, then a WRAP, an OVFCHK that counts it, and a WRAP still pending. -/
def countedWords : List OpWord :=
  [0x9300000001, 0x9500000001, 0x9600000001, 0xA000000000, 0x1000000000, 0x3000000000, 0x1000000000]

theorem witness_RolloverCountsEveryWrapOnce :
    State.reset.block = Block.reset ∧ (afterWords State.reset countedWords).block.mode = .running ∧
    (afterWords State.reset countedWords).block.wrapOverrun = false ∧
    (afterWords State.reset countedWords).block.rollover = 1 ∧
    (afterWords State.reset countedWords).block.ovfPend = true ∧ countWraps State.reset countedWords = 2 ∧
    countIncrements State.reset countedWords = 1 := by decide
theorem witness_WrapOverrunIsSticky :
    (∃ t, step (offered { runA with ovfPend := true } 0x1000000000) = .next t ∧ t.block.wrapOverrun = true) ∧
    runA.mode = .running ∧ { runA with wrapOverrun := true }.wrapOverrun = true := ⟨⟨_, rfl, rfl⟩, rfl, rfl⟩
theorem witness_SpeedIsStaleWithoutEdges :
    runA.mode = .running ∧ ∀ w ∈ ([0x4000000000] : List OpWord), ∀ raw, decode w ≠ .ok (.edge raw) := by
  refine ⟨rfl, ?_⟩
  intro w hw raw
  rw [List.mem_singleton.1 hw, show decode 0x4000000000 = .ok .tick from rfl]
  simp

/-- K1, with every variable of the statement. -/
theorem witness_TickExecutes_writers :
    runT.Inv ∧ ∃ t, exec .tick (at_ runT) = .next t ∧ t.block.err ≠ runT.err ∧ t.block.duty ≠ runT.duty :=
  ⟨runT_inv, _, rfl, by decide⟩
theorem witness_TickExecutes :
    ∃ (s : State) (e num duty : Int) (i1 : BitVec 64), s.block.mode = .running ∧ s.block.cfg.gainDen ≠ 0 ∧
      e = (s.block.target.toNat : Int) - s.block.speed.toNat ∧ i1 = s.block.integ + BitVec.ofInt 64 e ∧
      num = s.block.cfg.kp.toNat * e + s.block.cfg.ki.toNat * i1.toInt + s.block.cfg.kd.toNat * (e - s.block.prevErr.toInt) ∧
      duty = (if num > 100 * s.block.cfg.gainDen.toNat then 100 else if num < 0 then 0
        else num / s.block.cfg.gainDen.toNat) ∧
      duty = 63 ∧ faultA.mode ≠ .running ∧ (0x4000000001 : OpWord).toNat / 2 ^ 36 = 4 ∧
      (0x4000000001 : OpWord) ≠ 0x4000000000 :=
  ⟨at_ { runA with target := 30 }, 30, 630, 63, 30, by decide⟩
/-- K4 high by one, K7 low by one. -/
theorem witness_SaturatedTickCancelsWindup : runA.mode = .running ∧
    pidNum cfgA ((50 : Data).toNat - (0 : Data).toNat) (swrap 64 ((-49 : Acc).toInt + ((50 : Data).toNat - (0 : Data).toNat))) 0
      > 100 * cfgA.gainDen.toNat ∧
    pidNum cfgA ((0 : Data).toNat - (0 : Data).toNat) (swrap 64 ((-1 : Acc).toInt + ((0 : Data).toNat - (0 : Data).toNat))) 0 < 0 := by
  decide
/-- K15's extremes. -/
theorem witness_PidDatapathRanges :
    -(2 ^ 32 - 1) ≤ (BitVec.ofInt 64 (-(2 ^ 32 - 1))).toInt ∧ (BitVec.ofInt 64 (-(2 ^ 32 - 1))).toInt ≤ 2 ^ 32 - 1 ∧
    cfgA.gainDen ≠ 0 := by decide
theorem witness_SettgtExecutes : runA.mode = .running ∧ faultA.mode ≠ .running ∧
    (200 : Data) = (if (201 : Data).toNat ≤ runA.cfg.maxSpeed.toNat then 201 else runA.cfg.maxSpeed) ∧
    (0x510000001E : OpWord).toNat / 2 ^ 36 = 5 ∧ 2 ^ 32 ≤ (0x510000001E : OpWord).toNat % 2 ^ 36 := by decide
theorem witness_MapperIsIdempotentAndMonotone :
    (99 : Duty).toNat ≤ (100 : Duty).toNat ∧ (100 : Duty).toNat ≤ 100 ∧ cfgA.actPeriod = { cfgA with kp := 0 }.actPeriod := by
  decide
theorem witness_CompareNeverExceedsPeriod : (100 : Duty).toNat ≤ 100 ∧ runA.mode = .running ∧ runA.cfg.gainDen ≠ 0 := by
  decide

theorem witness_OnlyTickDrivesTheActuator :
    runT.Inv ∧ (∃ t, step (offered runT 0x4000000000) = .next t ∧ t.cmpStrobe = true ∧
      t.cmpOut ≠ runT.cmp) ∧ (State.mk runA none false .rst).pins = .rst :=
  ⟨runT_inv, ⟨_, rfl, rfl, by decide⟩, rfl⟩
theorem witness_ReadAccessorsExecute : faultA.Inv ∧ faultA.mode ≠ .running := ⟨faultA_inv, by decide⟩
theorem witness_GetstatExecutes : (runA.Inv ∧ runA.mode = .running) ∧ (faultA.Inv ∧ faultA.mode = .fault) :=
  ⟨⟨runA_inv, rfl⟩, ⟨faultA_inv, rfl⟩⟩
theorem witness_WrcfgExecutes : State.reset.block.mode = .unconfigured ∧ ∃ written : Cfg → State, written = (fun c =>
    { State.reset with block := { State.reset.block with cfg := c }, resp := some ⟨.ok, 0⟩, cmpStrobe := false }) :=
  ⟨rfl, _, rfl⟩
theorem witness_ConfigurationIsLocked : isWrcfg (.wrcfgKp 5) = true ∧ runA.mode ≠ .unconfigured ∧ faultA.mode ≠ .unconfigured := by
  decide
/-- H10 is accepted at the boundary; H8 is rejected one count above it. -/
theorem witness_InitDecides :
    (71582788 * 60 / 1 = 4294967280 ∧ BitVec.ofNat 3 ((if (1 : Nat) = 0 then 1 else 0) + (if (1 : Data) = 0 then 2 else 0) +
      (if (1 : Nat) ≠ 0 ∧ 0xFFFFFFFF < 4294967280 then 4 else 0)) = 0) ∧
    (71582789 * 60 / 1 = 4294967340 ∧ BitVec.ofNat 3 ((if (1 : Nat) = 0 then 1 else 0) + (if (1 : Data) = 0 then 2 else 0) +
      (if (1 : Nat) ≠ 0 ∧ 0xFFFFFFFF < 4294967340 then 4 else 0)) ≠ 0) ∧ Block.reset.mode = .unconfigured := by decide
/-- H11, the minimum configuration. -/
theorem witness_RunningModeGuarantee :
    (afterWords State.reset [0x9300000001, 0x9500000001, 0x9600000001, 0xA000000000]).block.mode = .running := by decide
theorem witness_SetupStartsTheBlock :
    (∃ ws : List OpWord, assemble (.setup ⟨10, 1, 10, 10, 200, 512, 6, 1000000, 2000, 0x8000⟩) = some (ws.map PortInput.op)) ∧
    512 * 6 ≠ 0 ∧ 1000000 * 60 / (512 * 6) ≤ 0xFFFFFFFF := ⟨⟨_, test_setup_words⟩, by decide, by decide⟩
theorem witness_ModeMatrix : needsRunning .wrap = true ∧ isRead .getspd = true ∧ isWrcfg (.wrcfgKp 0) = true := by decide
theorem witness_OnlyInitChangesMode :
    (∃ t, step (offered runA 0xA000000000) = .next t ∧ runA.mode ≠ .unconfigured) ∧ decode 0x4000000000 = .ok .tick ∧
    (∃ t, step (offered Block.reset 0xA000000000) = .next t ∧ Block.reset.mode = .unconfigured) ∧
    decode 0xA000000000 = .ok .init := ⟨⟨_, rfl, by decide⟩, rfl, ⟨_, rfl, rfl⟩, rfl⟩
theorem witness_FaultIsLeftOnlyByReset : faultA.mode = .fault ∧ decode 0x6000000000 = .ok .getspd ∧
    ∃ r, (afterWord (at_ faultA) 0x6000000000).resp = some r := ⟨rfl, rfl, _, rfl⟩
theorem witness_ConfigurationIsConstantWhileRunning : (at_ runA).block.mode = .running := rfl
theorem witness_RegistersHaveTheirWriters :
    runT.Inv ∧ ∃ t, exec .tick (at_ runT) = .next t ∧ t.block.integ ≠ runT.integ :=
  ⟨runT_inv, _, rfl, by decide⟩
/-- `keep` drops the word GETSPD and no other. -/
theorem witness_ReadsAreInvisible : ∀ w : OpWord, (w != 0x6000000000) = false → ∃ i, decode w = .ok i ∧ isRead i = true := by
  intro w h
  rw [show w = 0x6000000000 by simpa using h]
  exact ⟨.getspd, rfl, rfl⟩
theorem witness_TimePathIgnoresRegulator :
    runA.mode = .running ∧ runA.ovfPend = { runA with target := 30, duty := 5 }.ovfPend ∧
    runA.cfg.lowThreshold = { runA with target := 30, duty := 5 }.cfg.lowThreshold ∧
    decode 0x1000000000 = .ok .wrap ∧ decode 0x200000FFFF = .ok (.edge 0xFFFF) := ⟨rfl, rfl, rfl, rfl, rfl⟩
theorem witness_InvariantIsKept : (offered runA 0x4000000000).block.Inv ∧ ∃ t, step (offered runA 0x4000000000) = .next t :=
  ⟨runA_inv, _, rfl⟩
theorem witness_StepsAreTheFoldOfWords :
    (∃ t, drive (at_ runT) [.idle, .op 0x4000000000, .idle] = .next t ∧ t.block.duty = 63) ∧
    (∃ t, drive (at_ runT) ([.idle, .op 0x4000000000, .idle].filter fun e => e ≠ .idle) = .next t ∧
      t.block.duty = 63) := ⟨⟨_, rfl, rfl⟩, ⟨_, rfl, rfl⟩⟩
theorem witness_OnlyTheBlockIsState :
    (at_ runA).block = (State.mk runA (some ⟨.ok, 63⟩) true .rst).block ∧
    at_ runA ≠ State.mk runA (some ⟨.ok, 63⟩) true .rst := by decide

/-! ## A history that meets O1 to O4: sequence D of 95_test_vectors.md, an edge captured before the wrap and serviced
after it, then one after an OVFCHK -/

def historyD : List EnvEvent := [.edge 0xF000, .wrap, .edge 0xFFFE, .ovfchk, .edge 0x10002]

/-- A split of a list at an element is a split of its tail, or at its head. -/
theorem split_cons {α : Type} {x y : α} {es p q : List α} (h : x :: es = p ++ y :: q) :
    (p = [] ∧ x = y ∧ es = q) ∨ (∃ p', p = x :: p' ∧ es = p' ++ y :: q) := by
  cases p with
  | nil => exact .inl ⟨rfl, by simpa using h⟩
  | cons a p => simp only [List.cons_append, List.cons.injEq] at h; exact .inr ⟨p, by rw [h.1], h.2⟩

theorem split_nil {α : Type} {y : α} {p q : List α} (h : [] = p ++ y :: q) : False := by simp at h

theorem edges_of_historyD {p q : List EnvEvent} {τ : Nat} (h : historyD = p ++ .edge τ :: q) :
    (p = [] ∧ τ = 0xF000) ∨ (p = [.edge 0xF000, .wrap] ∧ τ = 0xFFFE) ∨
    (p = [.edge 0xF000, .wrap, .edge 0xFFFE, .ovfchk] ∧ τ = 0x10002) := by
  obtain ⟨rfl, h0, -⟩ | ⟨p1, rfl, h1⟩ := split_cons h
  · exact .inl ⟨rfl, (EnvEvent.edge.inj h0).symm⟩
  obtain ⟨rfl, h0, -⟩ | ⟨p2, rfl, h2⟩ := split_cons h1
  · cases h0
  obtain ⟨rfl, h0, -⟩ | ⟨p3, rfl, h3⟩ := split_cons h2
  · exact .inr (.inl ⟨rfl, (EnvEvent.edge.inj h0).symm⟩)
  obtain ⟨rfl, h0, -⟩ | ⟨p4, rfl, h4⟩ := split_cons h3
  · cases h0
  obtain ⟨rfl, h0, -⟩ | ⟨p5, rfl, h5⟩ := split_cons h4
  · exact .inr (.inr ⟨rfl, (EnvEvent.edge.inj h0).symm⟩)
  exact (split_nil h5).elim

theorem pending_needs_wrap {thr : Data} {es : List EnvEvent} (h : WrapPending thr es) : .wrap ∈ es := by
  obtain ⟨p, q, rfl, -⟩ := h; simp

theorem historyD_o1 : ObligationO1 historyD := by
  intro p τ q h
  obtain ⟨rfl, rfl⟩ | ⟨rfl, rfl⟩ | ⟨rfl, rfl⟩ := edges_of_historyD h <;>
    refine ⟨?_, by decide, by decide⟩ <;> intro τ' hτ' <;> simp at hτ' <;> omega

theorem wrap_of_historyD {p q : List EnvEvent} (h : historyD = p ++ .wrap :: q) :
    p = [.edge 0xF000] ∧ q = [.edge 0xFFFE, .ovfchk, .edge 0x10002] := by
  obtain ⟨rfl, h0, -⟩ | ⟨p1, rfl, h1⟩ := split_cons h
  · cases h0
  obtain ⟨rfl, -, rfl⟩ | ⟨p2, rfl, h2⟩ := split_cons h1
  · exact ⟨rfl, rfl⟩
  exfalso
  have : EnvEvent.wrap ∈ ([.edge 0xFFFE, .ovfchk, .edge 0x10002] : List EnvEvent) := by rw [h2]; simp
  simp at this

theorem historyD_o2 : ObligationO2 0x8000 historyD := by
  intro p q r h _
  have hq := (wrap_of_historyD h).2
  have : EnvEvent.wrap ∈ ([.edge 0xFFFE, .ovfchk, .edge 0x10002] : List EnvEvent) := by rw [← hq]; simp
  simp at this

theorem historyD_o3 : ObligationO3 historyD := by
  intro p q τ r h hlt
  obtain ⟨rfl, hq⟩ := wrap_of_historyD h
  obtain ⟨rfl, h0, -⟩ | ⟨q1, rfl, h1⟩ := split_cons hq.symm
  · simp
  exfalso
  obtain ⟨rfl, h0, -⟩ | ⟨q2, rfl, h2⟩ := split_cons h1
  · cases h0
  obtain ⟨rfl, h0, -⟩ | ⟨q3, rfl, h3⟩ := split_cons h2
  · cases h0; simp [wrapsIn] at hlt
  exact split_nil h3

theorem historyD_o4 : ObligationO4 0x8000 historyD := by
  intro p τ q h hp
  obtain ⟨rfl, rfl⟩ | ⟨rfl, rfl⟩ | ⟨rfl, rfl⟩ := edges_of_historyD h
  · exact absurd (pending_needs_wrap hp) (by simp)
  · exact ⟨by decide, by decide⟩
  · obtain ⟨p, q, hpq, -, hq⟩ := hp
    obtain ⟨rfl, h0, -⟩ | ⟨p1, rfl, hpq1⟩ := split_cons hpq
    · cases h0
    obtain ⟨rfl, -, rfl⟩ | ⟨p2, rfl, hpq2⟩ := split_cons hpq1
    · exact absurd trivial (hq .ovfchk (by simp))
    exfalso
    have : EnvEvent.wrap ∈ ([.edge 0xFFFE, .ovfchk] : List EnvEvent) := by rw [hpq2]; simp
    simp at this

theorem witness_TimestampsAreTrueUnderObligations :
    runA.mode = .running ∧ runA.rollover = 0 ∧ runA.ovfPend = false ∧ runA.wrapOverrun = false ∧
    (∀ e ∈ historyD, e.proper) ∧ ObligationO1 historyD ∧ ObligationO2 runA.cfg.lowThreshold historyD ∧
    ObligationO3 historyD ∧ ObligationO4 runA.cfg.lowThreshold historyD :=
  ⟨rfl, rfl, rfl, rfl, by simp [historyD, EnvEvent.proper], historyD_o1, historyD_o2, historyD_o3, historyD_o4⟩

/-- Sequence D's responses, through the trace of R37. -/
theorem test_sequence_D : (trace (at_ runA) (historyD.map EnvEvent.word)).map Transaction.respWord =
    [some 0x00000F000, some 0x000000000, some 0x00000FFFE, some 0x000000001, some 0x000010002] := by decide

/-- O4 (a) is met where a pending wrap is consumed by an edge (rows 1 to 3 of sequence B). -/
theorem witness_pending_wrap_before_capture :
    WrapPending 0x8000 [.edge 0xFFF0, .wrap] ∧ wrapsIn [.edge 0xFFF0, .wrap] ≤ wrapsAt 0x10010 ∧
    (rawAt 0x10010).toNat < (0x8000 : Data).toNat :=
  ⟨⟨[.edge 0xFFF0], [], rfl, by simp, by simp⟩, by decide, by decide⟩

end Sys2Proof.Machine.Tests
end

/-! ## What one operation can do to the block, said once

Proofs about the operations take a `BlockEffect` apart by `cases`, and unfold no meaning again. -/

namespace Sys2Proof.Machine

/-- The effect of one operation on the block (R123's matrix with R65, R66, R75, R85, R86, R108, R110): a constructor for
each way it can end, with the mode and the flags it needs. Of a WRCFG it does not say which register is written. -/
inductive BlockEffect (b : Block) : Instr → Block → Prop
  | wrap (hr : b.mode = .running) : BlockEffect b .wrap (recordWrap b)
  | edge (raw : Raw) (hr : b.mode = .running) : BlockEffect b (.edge raw) (edgeBlock b raw)
  | ovfchkPending (hr : b.mode = .running) (hp : b.ovfPend = true) : BlockEffect b .ovfchk (consumeWrap b)
  | ovfchkClear (hr : b.mode = .running) (hp : b.ovfPend = false) : BlockEffect b .ovfchk b
  | tick (hr : b.mode = .running) :
      BlockEffect b .tick (tickBlock b (pidStep b.cfg b.target b.speed b.integ b.prevErr))
  | settgt (v : Data) (hr : b.mode = .running) :
      BlockEffect b (.settgt v) { b with target := min32 v b.cfg.maxSpeed }
  | read {i : Instr} (hi : isRead i = true) : BlockEffect b i b
  | wrcfg {i : Instr} (r : CfgReg) (v : Data) (hi : isWrcfg i = true) (hu : b.mode = .unconfigured) :
      BlockEffect b i { b with cfg := b.cfg.set r v }
  | initAccepted (hu : b.mode = .unconfigured) (hc : checkCfg b.cfg = 0) : BlockEffect b .init (startBlock b)
  | initRejected (hu : b.mode = .unconfigured) (hc : checkCfg b.cfg ≠ 0) :
      BlockEffect b .init { b with cfgErr := checkCfg b.cfg, mode := .fault }
  | notRunning {i : Instr} (hi : needsRunning i = true) (hr : b.mode ≠ .running) : BlockEffect b i b
  | locked {i : Instr} (hi : isWrcfg i = true ∨ i = .init) (hu : b.mode ≠ .unconfigured) : BlockEffect b i b

/-- The gate of the five operations that need RUNNING mode. -/
theorem whenRunning_effect {i : Instr} {b : Block} {a : Answer} (hi : needsRunning i = true)
    (ha : b.mode = .running → BlockEffect b i a.block) : BlockEffect b i (whenRunning b a).block := by
  by_cases hr : b.mode = .running
  · rw [whenRunning_running b a hr]
    exact ha hr
  · rw [whenRunning_other b a hr]
    exact .notRunning hi hr

/-- The gate of WRCFG and INIT. -/
theorem whenUnconfigured_effect {i : Instr} {b : Block} {a : Answer} (hi : isWrcfg i = true ∨ i = .init)
    (ha : b.mode = .unconfigured → BlockEffect b i a.block) : BlockEffect b i (whenUnconfigured b a).block := by
  by_cases hu : b.mode = .unconfigured
  · rw [whenUnconfigured_unconfigured b a hu]
    exact ha hu
  · rw [whenUnconfigured_other b a hu]
    exact .locked hi hu

theorem ovfchk_effect {b : Block} (hr : b.mode = .running) :
    BlockEffect b .ovfchk (if b.ovfPend then respondOk (consumeWrap b) 1 else respondOk b 0).block := by
  cases hp : b.ovfPend with
  | false => exact .ovfchkClear hr hp
  | true => exact .ovfchkPending hr hp

theorem initAnswer_effect {b : Block} (hu : b.mode = .unconfigured) : BlockEffect b .init (initAnswer b).block := by
  obtain ⟨hc, ha⟩ | ⟨hc, ha⟩ := initAnswer_cases b
  · rw [ha]
    exact .initAccepted hu hc
  · rw [ha]
    exact .initRejected hu hc

/-- Every operation has one of the effects. -/
theorem answerOf_effect (i : Instr) (b : Block) : BlockEffect b i (answerOf i b).block := by
  cases i with
  | wrap => exact whenRunning_effect rfl .wrap
  | edge raw => exact whenRunning_effect rfl (.edge raw)
  | ovfchk => exact whenRunning_effect rfl ovfchk_effect
  | tick => exact whenRunning_effect rfl .tick
  | settgt v => exact whenRunning_effect rfl (.settgt v)
  | getspd | getduty | getstat => exact .read rfl
  | wrcfgKp v | wrcfgKi v | wrcfgKd v | wrcfgGainDen v | wrcfgMaxSpeed v | wrcfgPpr v | wrcfgGearRatio v
  | wrcfgTickFreq v | wrcfgActPeriod v | wrcfgLowThreshold v =>
    exact whenUnconfigured_effect (.inl rfl) (.wrcfg _ v rfl)
  | init => exact whenUnconfigured_effect (.inr rfl) initAnswer_effect

/-- The block an executed operation leaves. -/
theorem exec_effect {i : Instr} {s t : State} (h : exec i s = .next t) : BlockEffect s.block i t.block := by
  rw [exec_next i s t h]
  exact answerOf_effect i s.block

/-! ## One word on the pins -/

theorem step_next (s : State) : ∃ t, step s = .next t := by
  obtain ⟨-, h⟩ | ⟨w, i, -, -, h⟩ | ⟨w, why, -, -, h⟩ | ⟨-, -, h⟩ := step_cases s <;> exact ⟨_, h⟩

/-- The step after the environment has put a word on the pins is `afterWord`. -/
theorem step_offered (s : State) (w : OpWord) : step { s with pins := .op w } = .next (afterWord s w) := by
  obtain ⟨t, ht⟩ := step_next { s with pins := .op w }
  rw [afterWord, ht]

theorem step_op {s : State} {w : OpWord} (hp : s.pins = .op w) : step s = .next (afterWord s w) := by
  rw [← step_offered, ← hp]

theorem step_op_eq {s t : State} {w : OpWord} (hp : s.pins = .op w) (h : step s = .next t) : t = afterWord s w := by
  rw [step_op hp] at h
  exact (Host.Outcome.next.inj h).symm

theorem afterWord_of_ok (s : State) {w : OpWord} {i : Instr} (hd : decode w = .ok i) :
    afterWord s w = { block := (answerOf i s.block).block, resp := some (answerOf i s.block).resp,
                      cmpStrobe := (answerOf i s.block).strobe, pins := .idle } := by
  rw [afterWord_eq, hd]

theorem afterWord_of_error (s : State) {w : OpWord} {why : Illegal} (hd : decode w = .error why) :
    afterWord s w = { block := s.block, resp := some ⟨.illegalOp, 0⟩, cmpStrobe := false, pins := .idle } := by
  rw [afterWord_eq, hd]

/-- A legal word has the effect of its operation; an illegal one leaves the block. -/
theorem afterWord_effect (s : State) (w : OpWord) :
    (∃ i, decode w = .ok i ∧ BlockEffect s.block i (afterWord s w).block) ∨
    (∃ why, decode w = .error why ∧ (afterWord s w).block = s.block) := by
  obtain ⟨i, hd⟩ | ⟨why, hd⟩ := decode_total w
  · exact .inl ⟨i, hd, by rw [afterWord_of_ok s hd]; exact answerOf_effect i s.block⟩
  · exact .inr ⟨why, hd, by rw [afterWord_of_error s hd]⟩

/-! ## The block after EXTEND and after EDGE, as updates of the block before -/

/-- EXTEND writes ROLLOVER and OVF_PEND only (R67). -/
theorem extendBlock_frame (b : Block) (raw : Raw) :
    extendBlock b raw =
      { b with rollover := (extendBlock b raw).rollover, ovfPend := (extendBlock b raw).ovfPend } := by
  obtain ⟨-, -, h⟩ | ⟨-, h⟩ := extendBlock_cases b raw <;> rw [h]

/-- EDGE writes PREV_TS, PREV_VALID and SPEED besides (R75). -/
theorem edgeBlock_frame (b : Block) (raw : Raw) :
    edgeBlock b raw =
      { b with
        rollover := (extendBlock b raw).rollover
        ovfPend := (extendBlock b raw).ovfPend
        prevTs := extendTs b raw
        prevValid := true
        speed := rpmUpdate b (duration b (extendTs b raw)) } := by
  rw [edgeBlock, extendBlock_frame]

/-! ## The invariant of the block is kept -/

/-- A block that is not running, with nothing written but the three registers that may differ from reset there. -/
theorem inv_of_atReset {m : Mode} {e : BitVec 3} {c : Cfg} (hm : m ≠ .running) (hclear : m ≠ .fault → e = 0)
    (hcauses : m = .fault → e = checkCfg c ∧ e ≠ 0) :
    Block.Inv { Block.reset with mode := m, cfgErr := e, cfg := c } where
  cfgErrClear := hclear
  cfgErrCauses := hcauses
  atReset _ := rfl
  gainDenNotZero hr := absurd hr hm
  divisorNotZero hr := absurd hr hm
  scaleDerived hr := absurd hr hm
  speedBound := Nat.zero_le _
  targetBound := Nat.zero_le _
  errSame := rfl
  errRange := by simp
  dutyBound := Nat.zero_le _
  cmpMapped := by simp
  noEdgeYet _ := ⟨rfl, rfl⟩

theorem inv_reset : Block.reset.Inv :=
  inv_of_atReset (m := .unconfigured) (by decide) (fun _ => rfl) nofun

/-- A WRCFG writes over a block that is otherwise at reset. -/
theorem inv_setCfg {b : Block} (h : b.Inv) (hu : b.mode = .unconfigured) (c : Cfg) : { b with cfg := c }.Inv := by
  have hb := h.atReset (by simp [hu])
  have hnew : { b with cfg := c } = { Block.reset with mode := b.mode, cfgErr := b.cfgErr, cfg := c } :=
    congrArg (fun x : Block => { x with cfg := c }) hb
  rw [hnew]
  exact inv_of_atReset (by simp [hu]) h.cfgErrClear (fun hf => absurd hf (by simp [hu]))

/-- A rejected INIT leaves the causes of the configuration in CFGERR. -/
theorem inv_initRejected {b : Block} (h : b.Inv) (hu : b.mode = .unconfigured) (hc : checkCfg b.cfg ≠ 0) :
    { b with cfgErr := checkCfg b.cfg, mode := .fault }.Inv := by
  have hb := h.atReset (by simp [hu])
  have hnew : { b with cfgErr := checkCfg b.cfg, mode := .fault } =
      { Block.reset with mode := .fault, cfgErr := checkCfg b.cfg, cfg := b.cfg } :=
    congrArg (fun x : Block => { x with cfgErr := checkCfg b.cfg, mode := .fault }) hb
  rw [hnew]
  exact inv_of_atReset (by decide) (absurd rfl) (fun _ => ⟨rfl, hc⟩)

/-- DERIVE_SCALE of an accepted configuration fits SCALE (R109, R111). -/
theorem scale_of_accepted {c : Cfg} (hc : checkCfg c = 0) :
    (BitVec.ofNat 32 (deriveScale c)).toNat = c.tickFreq.toNat * 60 / divisor c := by
  obtain ⟨hd, -, hfit⟩ := checkCfg_accepts c hc
  rw [deriveScale_eq c hd, BitVec.toNat_ofNat]
  exact Nat.mod_eq_of_lt (by omega)

theorem inv_startBlock {b : Block} (h : b.Inv) (hu : b.mode = .unconfigured) (hc : checkCfg b.cfg = 0) :
    (startBlock b).Inv where
  cfgErrClear _ := h.cfgErrClear (by simp [hu])
  cfgErrCauses := nofun
  atReset := absurd rfl
  gainDenNotZero _ := (checkCfg_accepts b.cfg hc).2.1
  divisorNotZero _ := (checkCfg_accepts b.cfg hc).1
  scaleDerived _ := scale_of_accepted hc
  speedBound := Nat.zero_le _
  targetBound := Nat.zero_le _
  errSame := rfl
  errRange := by simp
  dutyBound := Nat.zero_le _
  cmpMapped := by simp
  noEdgeYet _ := ⟨rfl, rfl⟩

/-- The invariant asks nothing of ROLLOVER, OVF_PEND and WRAP_OVERRUN of a running block. -/
theorem inv_wrapFlags {b : Block} (h : b.Inv) (hr : b.mode = .running) (roll : Roll) (pend overrun : Bool) :
    { b with rollover := roll, ovfPend := pend, wrapOverrun := overrun }.Inv :=
  { h with atReset := fun hn => absurd hr hn }

/-- R79 (c): the quotient RPM_UPDATE stores is at most SCALE. -/
theorem rpmUpdate_le_scale {b : Block} (h : b.speed.toNat ≤ b.scale.toNat) (d : Data) :
    (rpmUpdate b d).toNat ≤ b.scale.toNat := by
  rw [rpmUpdate_toNat]
  split
  · exact h
  · exact Nat.div_le_self _ _

theorem inv_edgeBlock {b : Block} (h : b.Inv) (hr : b.mode = .running) (raw : Raw) : (edgeBlock b raw).Inv := by
  rw [edgeBlock_frame]
  exact { inv_wrapFlags h hr (extendBlock b raw).rollover (extendBlock b raw).ovfPend b.wrapOverrun with
    atReset := fun hn => absurd hr hn
    speedBound := rpmUpdate_le_scale h.speedBound _
    noEdgeYet := nofun }

theorem inv_settgt {b : Block} (h : b.Inv) (hr : b.mode = .running) (v : Data) :
    { b with target := min32 v b.cfg.maxSpeed }.Inv :=
  { h with
    atReset := fun hn => absurd hr hn
    targetBound := (min32_toNat v b.cfg.maxSpeed).trans_le (Nat.min_le_right _ _) }

/-- PID_STEP returns the error it was called with (R87). -/
theorem pidStep_e (c : Cfg) (t m : Data) (integ pe : Acc) :
    (pidStep c t m integ pe).e = (t.toNat : Int) - m.toNat := by
  obtain ⟨-, h⟩ | ⟨-, -, h⟩ | ⟨-, -, h⟩ := pidStep_cases c t m integ pe _ _ _ rfl rfl rfl <;> rw [h]

/-- R24, R90: the duty is a percentage. -/
theorem pidStep_duty_le (c : Cfg) (t m : Data) (integ pe : Acc) (hg : c.gainDen ≠ 0) :
    (pidStep c t m integ pe).duty.toNat ≤ 100 := by
  have hg' : c.gainDen.toNat ≠ 0 := fun h0 => hg (BitVec.eq_of_toNat_eq h0)
  obtain ⟨-, h⟩ | ⟨-, -, h⟩ | ⟨hle, hnn, h⟩ := pidStep_cases c t m integ pe _ _ _ rfl rfl rfl
  · simp [h]
  · simp [h]
  · rw [h, fdiv_of_pos _ _ hg']
    refine (BitVec.toNat_ofNat _ _).trans_le ((Nat.mod_le _ _).trans ?_)
    exact Nat.div_le_of_le_mul (by rw [Nat.mul_comm]; omega)

/-- R23: an error is a difference of two u32, which s64 holds. -/
theorem sext64_error_range (t m : Data) :
    -(2 ^ 32 - 1) ≤ (sext64 ((t.toNat : Int) - m.toNat)).toInt ∧
    (sext64 ((t.toNat : Int) - m.toNat)).toInt ≤ 2 ^ 32 - 1 := by
  have ht := t.isLt
  have hm := m.isLt
  rw [sext64_toInt _ (by omega) (by omega)]
  omega

theorem inv_tickBlock {b : Block} (h : b.Inv) (hr : b.mode = .running) :
    (tickBlock b (pidStep b.cfg b.target b.speed b.integ b.prevErr)).Inv := by
  have hduty := pidStep_duty_le b.cfg b.target b.speed b.integ b.prevErr (h.gainDenNotZero hr)
  exact { h with
    atReset := fun hn => absurd hr hn
    errSame := rfl
    errRange := by
      rw [tickBlock_prevErr, pidStep_e]
      exact sext64_error_range b.target b.speed
    dutyBound := hduty
    cmpMapped := mapDuty_toNat b.cfg _ hduty }

/-- Every operation keeps the invariant. -/
theorem BlockEffect.keeps_inv {b b' : Block} {i : Instr} (he : BlockEffect b i b') (h : b.Inv) : b'.Inv := by
  cases he with
  | wrap hr => exact inv_wrapFlags h hr b.rollover true (b.wrapOverrun || b.ovfPend)
  | edge raw hr => exact inv_edgeBlock h hr raw
  | ovfchkPending hr _ => exact inv_wrapFlags h hr (uwrap 16 (b.rollover.toNat + 1)) false b.wrapOverrun
  | tick hr => exact inv_tickBlock h hr
  | settgt v hr => exact inv_settgt h hr v
  | wrcfg r v _ hu => exact inv_setCfg h hu _
  | initAccepted hu hc => exact inv_startBlock h hu hc
  | initRejected hu hc => exact inv_initRejected h hu hc
  | ovfchkClear | read | notRunning | locked => exact h

/-- Settles O52, by the cases of a step and, for a legal word, of its operation's effect. -/
theorem invariantIsKept : Obligations.InvariantIsKept := by
  intro s t hinv hstep
  obtain ⟨-, h⟩ | ⟨w, i, -, -, h⟩ | ⟨w, why, -, -, h⟩ | ⟨-, -, h⟩ := step_cases s <;>
    cases Host.Outcome.next.inj (hstep.symm.trans h)
  · exact hinv
  · exact (answerOf_effect i s.block).keeps_inv hinv
  · exact hinv
  · exact inv_reset

end Sys2Proof.Machine

/-! ## The step, idling and the pins (R12, R37) -/

namespace Sys2Proof.Machine

/-- Settles O8: `step` on a legal word is `exec` at the transferred state. -/
theorem stepRunsDecodedOperation : Obligations.StepRunsDecodedOperation := by
  intro s w i hp hd
  simp [step, takeInput, hp, hd, transferred]

/-- What every word leaves on the ports: one response, and the word off the pins (R37, R157). -/
theorem afterWord_answers (s : State) (w : OpWord) : ∃ r, (afterWord s w).resp = some r := by
  rw [afterWord_eq]
  split <;> exact ⟨_, rfl⟩

/-- Settles O10, from `afterWord_answers` and `afterWord_pins`. -/
theorem everyWordIsAnswered : Obligations.EveryWordIsAnswered := by
  intro s w hp
  obtain ⟨r, hr⟩ := afterWord_answers s w
  exact ⟨afterWord s w, r, step_op hp, hr, by simp [State.respValid, hr], by simp [State.respWord, hr],
    afterWord_pins s w, rfl⟩

theorem step_idle {s : State} (hp : s.pins = .idle) : step s = .next (idle s) := by
  simp [step, takeInput, hp]

/-- Settles O12: the idle step. -/
theorem idleHoldsTheState : Obligations.IdleHoldsTheState :=
  fun _ hp => step_idle hp

/-- Once the environment has set the pins, the block alone decides the step. -/
theorem step_congr_block {s₁ s₂ : State} (h : s₁.block = s₂.block) (e : PortInput) :
    step { s₁ with pins := e } = step { s₂ with pins := e } := by
  rw [step_pins_eq s₁ e, step_pins_eq s₂ e, h]

theorem drive_cons_congr {s₁ s₂ : State} (h : s₁.block = s₂.block) (e : PortInput) (es : List PortInput) :
    drive s₁ (e :: es) = drive s₂ (e :: es) := by
  rw [drive, drive, step_congr_block h e]

theorem drive_cons_of_next {s u : State} {e : PortInput} (h : step { s with pins := e } = .next u)
    (es : List PortInput) : drive s (e :: es) = drive u es := by
  rw [drive, h]

theorem afterWord_congr {s₁ s₂ : State} (h : s₁.block = s₂.block) (w : OpWord) :
    afterWord s₁ w = afterWord s₂ w := by
  rw [afterWord_eq, afterWord_eq, h]

/-- Settles O53: the first event already puts both machines in one state. -/
theorem onlyTheBlockIsState : Obligations.OnlyTheBlockIsState := by
  intro s₁ s₂ h
  refine ⟨drive_cons_congr h, fun ws => ?_⟩
  cases ws with
  | nil => rfl
  | cons w ws => rw [trace, trace, afterWord_congr h w]

theorem drive_words (s : State) (ws : List OpWord) :
    drive s (ws.map PortInput.op) = .next (afterWords s ws) := by
  induction ws generalizing s with
  | nil => rfl
  | cons w ws ih => exact (drive_cons_of_next (step_offered s w) _).trans (ih (afterWord s w))

/-- Two machines with equal blocks, one driven without the other's idle steps, end with equal blocks. -/
theorem drive_filter_idle {s s' t t' : State} {es : List PortInput} (hb : s.block = s'.block)
    (h : drive s es = .next t) (h' : drive s' (es.filter fun e => e ≠ .idle) = .next t') : t.block = t'.block := by
  induction es generalizing s s' with
  | nil =>
    cases h
    cases h'
    exact hb
  | cons e es ih =>
    obtain ⟨u, hu⟩ := step_next { s with pins := e }
    rw [drive_cons_of_next hu] at h
    by_cases he : e = .idle
    · have hidle := step_idle (s := { s with pins := e }) he
      have hub : u.block = s.block := by rw [Host.Outcome.next.inj (hu.symm.trans hidle), idle_block]
      rw [List.filter_cons_of_neg (by simp [he])] at h'
      exact ih (hub.trans hb) h h'
    · rw [List.filter_cons_of_pos (by simp [he]), drive_cons_of_next ((step_congr_block hb e).symm.trans hu)] at h'
      exact ih rfl h h'

/-- Settles O49, by induction on the words and on the port events. -/
theorem stepsAreTheFoldOfWords : Obligations.StepsAreTheFoldOfWords := by
  refine ⟨drive_words, ?_⟩
  intro s t t' es h h'
  exact drive_filter_idle rfl h h'

end Sys2Proof.Machine

/-! ## What a running block keeps, and who changes MODE -/

namespace Sys2Proof.Machine

/-- In RUNNING mode no operation changes MODE, the configuration or SCALE (R13, R26, R20). -/
theorem BlockEffect.running_frame {b b' : Block} {i : Instr} (he : BlockEffect b i b') (hr : b.mode = .running) :
    b'.mode = .running ∧ b'.cfg = b.cfg ∧ b'.scale = b.scale := by
  cases he with
  | edge raw =>
    rw [edgeBlock_frame]
    exact ⟨hr, rfl, rfl⟩
  | wrcfg _ _ _ hu | initAccepted hu | initRejected hu => exact absurd (hu.symm.trans hr) (by decide)
  | wrap | ovfchkPending | ovfchkClear | tick | settgt | read | notRunning | locked => exact ⟨hr, rfl, rfl⟩

theorem afterWord_running_frame {s : State} (hr : s.block.mode = .running) (w : OpWord) :
    (afterWord s w).block.mode = .running ∧ (afterWord s w).block.cfg = s.block.cfg ∧
    (afterWord s w).block.scale = s.block.scale := by
  obtain ⟨i, -, he⟩ | ⟨why, -, hb⟩ := afterWord_effect s w
  · exact he.running_frame hr
  · rw [hb]
    exact ⟨hr, rfl, rfl⟩

/-- Settles O45: `afterWord_running_frame` over the sequence. -/
theorem configurationIsConstantWhileRunning : Obligations.ConfigurationIsConstantWhileRunning := by
  intro s ws hr
  refine afterWords_keeps
    (fun t => t.block.mode = .running ∧ t.block.cfg = s.block.cfg ∧ t.block.scale = s.block.scale)
    ?_ s ws ⟨hr, rfl, rfl⟩
  rintro u w ⟨hru, hcfg, hscale⟩
  obtain ⟨hr', hcfg', hscale'⟩ := afterWord_running_frame hru w
  exact ⟨hr', hcfg'.trans hcfg, hscale'.trans hscale⟩

theorem afterWords_running {s : State} (hr : s.block.mode = .running) (ws : List OpWord) :
    (afterWords s ws).block.mode = .running :=
  (configurationIsConstantWhileRunning s ws hr).1

/-- MODE changes at an INIT in UNCONFIGURED mode only, as CHECK_CFG decides (R13, R110). -/
theorem BlockEffect.mode {b b' : Block} {i : Instr} (he : BlockEffect b i b') :
    b'.mode = if b.mode = .unconfigured ∧ i = .init then (if checkCfg b.cfg = 0 then .running else .fault)
      else b.mode := by
  cases he with
  | edge raw =>
    rw [edgeBlock_frame]
    simp
  | initAccepted hu hc => rw [if_pos ⟨hu, rfl⟩, if_pos hc, startBlock_mode]
  | initRejected hu hc => rw [if_pos ⟨hu, rfl⟩, if_neg hc]
  | read hi | wrcfg _ _ hi | notRunning hi =>
    refine (if_neg ?_).symm
    rintro ⟨-, rfl⟩
    exact Bool.noConfusion hi
  | locked _ hu => simp [hu]
  | wrap | ovfchkPending | ovfchkClear | tick | settgt => simp

/-- Settles O43, from `BlockEffect.mode`. -/
theorem onlyInitChangesMode : Obligations.OnlyInitChangesMode := by
  intro s t w hp hstep
  rw [step_op_eq hp hstep]
  obtain ⟨i, hd, he⟩ | ⟨why, hd, hb⟩ := afterWord_effect s w
  · rw [he.mode, hd]
    refine ⟨fun hu => ?_, fun hi => ?_, fun hu hi => ?_⟩
    · exact if_neg fun h => hu h.1
    · exact if_neg fun h => hi (congrArg Except.ok h.2)
    · exact if_pos ⟨hu, Except.ok.inj hi⟩
  · rw [hb, hd]
    exact ⟨fun _ => rfl, fun _ => rfl, nofun⟩

end Sys2Proof.Machine

/-! ## The wrap flags (R14, R15, R153) -/

namespace Sys2Proof.Machine

/-- How a running block's pending wrap ends an operation that is not WRAP: consumed together with an increment of
ROLLOVER, or left alone with it. -/
def PendingConsumedOrKept (b b' : Block) : Prop :=
  (b.ovfPend = true ∧ b'.ovfPend = false ∧ b'.rollover = b.rollover + 1) ∨
  (b'.ovfPend = b.ovfPend ∧ b'.rollover = b.rollover)

theorem extendBlock_consumesOrKeeps (b : Block) (raw : Raw) : PendingConsumedOrKept b (extendBlock b raw) := by
  obtain ⟨hp, -, h⟩ | ⟨-, h⟩ := extendBlock_cases b raw <;> rw [h]
  · exact .inl ⟨hp, rfl, rfl⟩
  · exact .inr ⟨rfl, rfl⟩

/-- WRAP sets OVF_PEND and keeps ROLLOVER; no other operation sets either flag WRAP sets. -/
theorem BlockEffect.wrapFlags {b b' : Block} {i : Instr} (he : BlockEffect b i b') (hr : b.mode = .running) :
    (i = .wrap ∧ b' = recordWrap b) ∨
    (i ≠ .wrap ∧ b'.wrapOverrun = b.wrapOverrun ∧ PendingConsumedOrKept b b') := by
  cases he with
  | wrap => exact .inl ⟨rfl, rfl⟩
  | edge raw =>
    refine .inr ⟨nofun, ?_, extendBlock_consumesOrKeeps b raw⟩
    rw [edgeBlock_frame]
  | ovfchkPending _ hp => exact .inr ⟨nofun, rfl, .inl ⟨hp, rfl, uwrap16_succ b.rollover⟩⟩
  | read hi | locked hi =>
    refine .inr ⟨?_, rfl, .inr ⟨rfl, rfl⟩⟩
    rintro rfl
    simp [isRead, isWrcfg] at hi
  | wrcfg _ _ _ hu | initAccepted hu | initRejected hu => exact absurd (hu.symm.trans hr) (by decide)
  | notRunning _ hn => exact absurd hr hn
  | ovfchkClear | tick | settgt => exact .inr ⟨nofun, rfl, .inr ⟨rfl, rfl⟩⟩

theorem afterWord_wrapFlags {s : State} (hr : s.block.mode = .running) (w : OpWord) :
    (decode w = .ok .wrap ∧ (afterWord s w).block = recordWrap s.block) ∨
    (decode w ≠ .ok .wrap ∧ (afterWord s w).block.wrapOverrun = s.block.wrapOverrun ∧
      PendingConsumedOrKept s.block (afterWord s w).block) := by
  obtain ⟨i, hd, he⟩ | ⟨why, hd, hb⟩ := afterWord_effect s w
  · obtain ⟨rfl, hb⟩ | ⟨hi, hrest⟩ := he.wrapFlags hr
    · exact .inl ⟨hd, hb⟩
    · exact .inr ⟨fun h => hi (Except.ok.inj (hd.symm.trans h)), hrest⟩
  · refine .inr ⟨by simp [hd], ?_⟩
    rw [hb]
    exact ⟨rfl, .inr ⟨rfl, rfl⟩⟩

/-- Settles O21, from the two cases of `afterWord_wrapFlags`. -/
theorem wrapsAreConsumedAtMostOnce : Obligations.WrapsAreConsumedAtMostOnce := by
  intro s t w hp hr hstep
  rw [step_op_eq hp hstep]
  obtain ⟨hd, hb⟩ | ⟨hd, -, ⟨hpend, hpend', hroll⟩ | ⟨hpend, hroll⟩⟩ := afterWord_wrapFlags hr w
  · rw [hb]
    refine ⟨fun h => absurd rfl h, fun _ _ => hd, ?_⟩
    cases hpend : s.block.ovfPend <;> simp [hd]
  · refine ⟨fun _ => ⟨hpend, hpend', hroll⟩, fun h => absurd (h.symm.trans hpend) (by decide), ?_⟩
    simp [hpend, hpend', hroll, hd, BitVec.toNat_add]
  · refine ⟨fun h => absurd hroll h, fun h h' => absurd (h'.symm.trans (hpend.trans h)) (by decide), ?_⟩
    simp [hpend, hroll, hd]

theorem afterWord_wrapOverrun_iff {s : State} (hr : s.block.mode = .running) (w : OpWord) :
    (afterWord s w).block.wrapOverrun = true ↔
      s.block.wrapOverrun = true ∨ (decode w = .ok .wrap ∧ s.block.ovfPend = true) := by
  obtain ⟨hd, hb⟩ | ⟨hd, hover, -⟩ := afterWord_wrapFlags hr w
  · simp [hb, hd]
  · simp [hover, hd]

/-- Settles O23: the flag after one word, then an invariant of RUNNING mode over the sequence. -/
theorem wrapOverrunIsSticky : Obligations.WrapOverrunIsSticky := by
  refine ⟨fun s t w hp hr hstep => ?_, fun s ws hr hover => ?_⟩
  · rw [step_op_eq hp hstep]
    exact afterWord_wrapOverrun_iff hr w
  · refine (afterWords_keeps (fun t => t.block.mode = .running ∧ t.block.wrapOverrun = true) ?_ s ws ⟨hr, hover⟩).2
    rintro u w ⟨hru, hu⟩
    exact ⟨(afterWord_running_frame hru w).1, (afterWord_wrapOverrun_iff hru w).2 (.inl hu)⟩

end Sys2Proof.Machine

/-! ## The STATUS view (R25, R107) -/

namespace Sys2Proof.Machine

/-- A word or-ed in above the bits in use is added. -/
theorem or_shiftLeft_toNat {lo hi : Data} {k : Nat} (hlo : lo.toNat < 2 ^ k) (hhi : hi.toNat * 2 ^ k < 2 ^ 32) :
    (lo ||| hi <<< k).toNat = lo.toNat + hi.toNat * 2 ^ k := by
  rw [BitVec.toNat_or, BitVec.toNat_shiftLeft, Nat.shiftLeft_eq, Nat.mod_eq_of_lt hhi, ← Nat.shiftLeft_eq,
    Nat.or_comm, ← Nat.shiftLeft_add_eq_or_of_lt hlo, Nat.shiftLeft_eq, Nat.add_comm]

theorem flag32_toNat_le (f : Bool) : (flag32 f).toNat ≤ 1 := by
  rw [flag32_toNat]
  split <;> decide

/-- The STATUS word as a number (R25): each field lies above the fields before it. -/
theorem status_toNat (b : Block) :
    (status b).toNat = b.mode.number.toNat + (if b.ovfPend then 4 else 0) + (if b.prevValid then 8 else 0) +
      (if b.wrapOverrun then 16 else 0) + b.cfgErr.toNat * 256 := by
  have hmode : (zext32 b.mode.number).toNat = b.mode.number.toNat := zext32_toNat _ (by decide)
  have hcauses : (zext32 b.cfgErr).toNat = b.cfgErr.toNat := zext32_toNat _ (by decide)
  have hmodeLt := b.mode.number.isLt
  have hcausesLt := b.cfgErr.isLt
  have hpend := flag32_toNat_le b.ovfPend
  have hvalid := flag32_toNat_le b.prevValid
  have hover := flag32_toNat_le b.wrapOverrun
  have upToPend := or_shiftLeft_toNat (lo := zext32 b.mode.number) (hi := flag32 b.ovfPend) (k := 2)
    (by omega) (by omega)
  have upToValid := or_shiftLeft_toNat (hi := flag32 b.prevValid) (k := 3) (upToPend.trans_lt (by omega)) (by omega)
  have upToOver := or_shiftLeft_toNat (hi := flag32 b.wrapOverrun) (k := 4) (upToValid.trans_lt (by omega)) (by omega)
  have upToCauses := or_shiftLeft_toNat (hi := zext32 b.cfgErr) (k := 8) (upToOver.trans_lt (by omega)) (by omega)
  rw [status, upToCauses, upToOver, upToValid, upToPend, hmode, hcauses]
  simp only [flag32_toNat, ite_mul, Nat.one_mul, Nat.zero_mul, Nat.reducePow]

/-- Settles O35: `status_toNat`, and the invariant's clauses on CFGERR for the corner cases. -/
theorem getstatExecutes : Obligations.GetstatExecutes := by
  refine ⟨fun s => ⟨status s.block, rfl, status_toNat s.block⟩, ⟨rfl, rfl, rfl⟩, rfl, ?_⟩
  refine fun b hinv => ⟨fun hm => ?_, fun hm => ?_⟩
  · have hcauses : b.cfgErr.toNat = 0 := by rw [hinv.cfgErrClear (by simp [hm])]; rfl
    have hmode : b.mode.number.toNat = 1 := by rw [hm]; rfl
    rw [status_toNat, hmode, hcauses]
    split_ifs <;> omega
  · have hcauses : b.cfgErr.toNat ≠ 0 := fun h => (hinv.cfgErrCauses hm).2 (BitVec.eq_of_toNat_eq h)
    have hmode : b.mode.number.toNat = 2 := by rw [hm]; rfl
    rw [status_toNat, hmode]
    split_ifs <;> omega

end Sys2Proof.Machine

/-! ## The writers of each register (R10) -/

namespace Sys2Proof.Machine

/-- The twelve clears of INIT find their registers 0 (R110). -/
theorem startBlock_eq {b : Block} (h : b.Inv) (hu : b.mode = .unconfigured) :
    startBlock b = { b with mode := .running, scale := BitVec.ofNat 32 (deriveScale b.cfg) } := by
  rw [h.atReset (by simp [hu])]
  rfl

/-- Settles O46, by the effect of the operation. -/
theorem registersHaveTheirWriters : Obligations.RegistersHaveTheirWriters := by
  intro s t i hinv hexec
  have he := exec_effect hexec
  generalize s.block = b at *
  generalize t.block = b' at *
  cases he with
  | wrap => simp
  | edge raw =>
    rw [edgeBlock_frame]
    simp [isEdge]
  | ovfchkPending => simp
  | tick => simp
  | settgt v => simp [isSettgt]
  | wrcfg _ _ hi => simp [hi]
  | initAccepted hu =>
    rw [startBlock_eq hinv hu]
    simp
  | initRejected => simp
  | ovfchkClear | read | notRunning | locked => simp

end Sys2Proof.Machine

/-! ## The time path (R10, R65, R66, R75)

`timePath b` is `b` with everything erased that the Time Extender and the RPM Estimator do not read. In RUNNING mode the
time path after an operation is a function of the time path before it, so two blocks with one time path keep one. -/

namespace Sys2Proof.Machine

/-- The registers of the Time Extender and the RPM Estimator, with LOW_THRESHOLD, in a running block at reset. -/
def timePath (b : Block) : Block :=
  { Block.reset with
    mode := .running
    ovfPend := b.ovfPend
    wrapOverrun := b.wrapOverrun
    prevValid := b.prevValid
    rollover := b.rollover
    prevTs := b.prevTs
    scale := b.scale
    speed := b.speed
    cfg := { Cfg.reset with lowThreshold := b.cfg.lowThreshold } }

/-- What an operation does to the time path of a running block. -/
def timeEffect (i : Instr) (b : Block) : Block :=
  match i with
  | .wrap => recordWrap b
  | .edge raw => edgeBlock b raw
  | .ovfchk => if b.ovfPend then consumeWrap b else b
  | _ => b

theorem timePath_extendBlock (b : Block) (raw : Raw) : timePath (extendBlock b raw) = extendBlock (timePath b) raw := by
  have hsame : edgeConsumes (timePath b) raw = edgeConsumes b raw := rfl
  rw [extendBlock, extendBlock, hsame]
  split <;> rfl

theorem extendTs_timePath (b : Block) (raw : Raw) : extendTs (timePath b) raw = extendTs b raw := by
  rw [extendTs, ← timePath_extendBlock]
  rfl

theorem timePath_edgeBlock (b : Block) (raw : Raw) : timePath (edgeBlock b raw) = edgeBlock (timePath b) raw := by
  rw [edgeBlock, edgeBlock, ← timePath_extendBlock, extendTs_timePath]
  rfl

theorem timeEffect_other {i : Instr} (hi : isRead i = true ∨ isWrcfg i = true ∨ i = .init) (b : Block) :
    timeEffect i b = b := by
  cases i with
  | wrap | edge | ovfchk => simp [isRead, isWrcfg] at hi
  | _ => rfl

theorem BlockEffect.timePath_eq {b b' : Block} {i : Instr} (he : BlockEffect b i b') (hr : b.mode = .running) :
    timePath b' = timeEffect i (timePath b) := by
  cases he with
  | edge raw => exact timePath_edgeBlock b raw
  | ovfchkPending _ hp => exact (if_pos hp).symm
  | ovfchkClear _ hp => exact (if_neg (by simp [timePath, hp])).symm
  | wrap | tick | settgt => rfl
  | read hi => exact (timeEffect_other (.inl hi) _).symm
  | locked hi => exact (timeEffect_other (.inr hi) _).symm
  | wrcfg _ _ _ hu | initAccepted hu | initRejected hu => exact absurd (hu.symm.trans hr) (by decide)
  | notRunning _ hn => exact absurd hr hn

theorem afterWord_timePath {s : State} (hr : s.block.mode = .running) (w : OpWord) :
    timePath (afterWord s w).block =
      match decode w with
      | .ok i => timeEffect i (timePath s.block)
      | .error _ => timePath s.block := by
  obtain ⟨i, hd, he⟩ | ⟨why, hd, hb⟩ := afterWord_effect s w
  · rw [hd, he.timePath_eq hr]
  · rw [hd, hb]

theorem afterWords_timePath_congr {s₁ s₂ : State} (hr₁ : s₁.block.mode = .running) (hr₂ : s₂.block.mode = .running)
    (h : timePath s₁.block = timePath s₂.block) (ws : List OpWord) :
    timePath (afterWords s₁ ws).block = timePath (afterWords s₂ ws).block := by
  induction ws generalizing s₁ s₂ with
  | nil => exact h
  | cons w ws ih =>
    refine ih (afterWord_running_frame hr₁ w).1 (afterWord_running_frame hr₂ w).1 ?_
    rw [afterWord_timePath hr₁, afterWord_timePath hr₂, h]

/-- WRAP, OVFCHK, GETSPD and EDGE answer from the time path alone. -/
theorem answerOf_resp_timePath {i : Instr} {b : Block} (hr : b.mode = .running)
    (hi : i = .wrap ∨ i = .ovfchk ∨ i = .getspd ∨ ∃ raw, i = .edge raw) :
    (answerOf i b).resp = (answerOf i (timePath b)).resp := by
  have hr' : (timePath b).mode = .running := rfl
  obtain rfl | rfl | rfl | ⟨raw, rfl⟩ := hi
  · simp only [answerOf, whenRunning_running _ _ hr, whenRunning_running _ _ hr', respondOk_resp]
  · have hpend : (timePath b).ovfPend = b.ovfPend := rfl
    rw [answerOf, whenRunning_running _ _ hr, answerOf, whenRunning_running _ _ hr', hpend]
    split <;> rfl
  · rfl
  · simp only [answerOf, whenRunning_running _ _ hr, whenRunning_running _ _ hr', respondOk_resp, extendTs_timePath]

theorem afterWord_resp_timePath_congr {s₁ s₂ : State} {w : OpWord} (hr₁ : s₁.block.mode = .running)
    (hr₂ : s₂.block.mode = .running) (h : timePath s₁.block = timePath s₂.block)
    (hw : decode w = .ok .wrap ∨ decode w = .ok .ovfchk ∨ decode w = .ok .getspd ∨
      ∃ raw, decode w = .ok (.edge raw)) :
    (afterWord s₁ w).resp = (afterWord s₂ w).resp := by
  obtain ⟨i, hd, hi⟩ : ∃ i, decode w = .ok i ∧ (i = .wrap ∨ i = .ovfchk ∨ i = .getspd ∨ ∃ raw, i = .edge raw) := by
    obtain hd | hd | hd | ⟨raw, hd⟩ := hw <;> exact ⟨_, hd, by simp⟩
  rw [afterWord_of_ok s₁ hd, afterWord_of_ok s₂ hd]
  exact congrArg some (by rw [answerOf_resp_timePath hr₁ hi, answerOf_resp_timePath hr₂ hi, h])

/-- The time path is eight registers: what TimePathIgnoresRegulator asks two blocks to agree on. -/
theorem timePath_eq_iff (b₁ b₂ : Block) :
    timePath b₁ = timePath b₂ ↔
      b₁.ovfPend = b₂.ovfPend ∧ b₁.wrapOverrun = b₂.wrapOverrun ∧ b₁.prevValid = b₂.prevValid ∧
      b₁.rollover = b₂.rollover ∧ b₁.prevTs = b₂.prevTs ∧ b₁.scale = b₂.scale ∧ b₁.speed = b₂.speed ∧
      b₁.cfg.lowThreshold = b₂.cfg.lowThreshold := by
  simp [timePath]

/-- Settles O48: equal time paths stay equal, and the four answers are read from them. -/
theorem timePathIgnoresRegulator : Obligations.TimePathIgnoresRegulator := by
  rintro s₁ s₂ agree rfl hr₁ hr₂ hagree
  have hpath := (timePath_eq_iff s₁.block s₂.block).2 hagree
  refine ⟨fun ws => (timePath_eq_iff _ _).1 (afterWords_timePath_congr hr₁ hr₂ hpath ws), fun ws w hw => ?_⟩
  rw [afterWords_append, afterWords_append]
  exact afterWord_resp_timePath_congr (afterWords_running hr₁ ws) (afterWords_running hr₂ ws)
    (afterWords_timePath_congr hr₁ hr₂ hpath ws) hw

end Sys2Proof.Machine

/-! ## Reads among other words (R45) -/

namespace Sys2Proof.Machine

theorem answerOf_block_of_isRead {i : Instr} (hi : isRead i = true) (b : Block) : (answerOf i b).block = b := by
  cases i with
  | getspd | getduty | getstat => rfl
  | _ => exact Bool.noConfusion hi

theorem afterWord_block_of_isRead (s : State) {w : OpWord} {i : Instr} (hd : decode w = .ok i)
    (hi : isRead i = true) : (afterWord s w).block = s.block := by
  rw [afterWord_of_ok s hd]
  exact answerOf_block_of_isRead hi s.block

theorem afterWords_block_congr {s₁ s₂ : State} (h : s₁.block = s₂.block) (ws : List OpWord) :
    (afterWords s₁ ws).block = (afterWords s₂ ws).block := by
  cases ws with
  | nil => exact h
  | cons w ws => rw [afterWords, afterWords, afterWord_congr h w]

/-- Settles O47, by induction on the words: a dropped read leaves the block that the remaining words start from. -/
theorem readsAreInvisible : Obligations.ReadsAreInvisible := by
  intro s ws keep hread
  induction ws generalizing s with
  | nil => rfl
  | cons w ws ih =>
    cases hk : keep w with
    | true =>
      rw [List.filter_cons_of_pos hk]
      exact ih (afterWord s w)
    | false =>
      obtain ⟨i, hd, hi⟩ := hread w hk
      rw [List.filter_cons_of_neg (by simp [hk])]
      calc (afterWords (afterWord s w) ws).block
          = (afterWords (afterWord s w) (ws.filter keep)).block := ih (afterWord s w)
        _ = (afterWords s (ws.filter keep)).block :=
            afterWords_block_congr (afterWord_block_of_isRead s hd hi) (ws.filter keep)

end Sys2Proof.Machine

/-! ## The operations by the operands they take (R51): none, EDGE, SETTGT, and the ten rows of WRCFG as one -/

namespace Sys2Proof.Machine

/-- The operations without operand (R56). -/
def plainInstrs : List Instr := [.wrap, .ovfchk, .tick, .getspd, .getduty, .getstat, .init]

/-- The configuration registers in index order (R26). -/
def cfgRegs : List CfgReg :=
  [.kp, .ki, .kd, .gainDen, .maxSpeed, .ppr, .gearRatio, .tickFreq, .actPeriod, .lowThreshold]

/-- The index of a configuration register (R26). -/
def CfgReg.index : CfgReg → Nat
  | .kp => 0
  | .ki => 1
  | .kd => 2
  | .gainDen => 3
  | .maxSpeed => 4
  | .ppr => 5
  | .gearRatio => 6
  | .tickFreq => 7
  | .actPeriod => 8
  | .lowThreshold => 9

/-- The WRCFG operation that writes a given register. -/
def wrcfg (r : CfgReg) (v : Data) : Instr :=
  match r with
  | .kp => .wrcfgKp v
  | .ki => .wrcfgKi v
  | .kd => .wrcfgKd v
  | .gainDen => .wrcfgGainDen v
  | .maxSpeed => .wrcfgMaxSpeed v
  | .ppr => .wrcfgPpr v
  | .gearRatio => .wrcfgGearRatio v
  | .tickFreq => .wrcfgTickFreq v
  | .actPeriod => .wrcfgActPeriod v
  | .lowThreshold => .wrcfgLowThreshold v

/-- A statement about every operation, by the operands it takes. -/
theorem forall_instr {P : Instr → Prop} (hplain : ∀ i ∈ plainInstrs, P i) (hedge : ∀ raw, P (.edge raw))
    (hsettgt : ∀ v, P (.settgt v)) (hwrcfg : ∀ r v, P (wrcfg r v)) (i : Instr) : P i := by
  cases i with
  | wrap | ovfchk | tick | getspd | getduty | getstat | init => exact hplain _ (by decide)
  | edge raw => exact hedge raw
  | settgt v => exact hsettgt v
  | wrcfgKp v => exact hwrcfg .kp v
  | wrcfgKi v => exact hwrcfg .ki v
  | wrcfgKd v => exact hwrcfg .kd v
  | wrcfgGainDen v => exact hwrcfg .gainDen v
  | wrcfgMaxSpeed v => exact hwrcfg .maxSpeed v
  | wrcfgPpr v => exact hwrcfg .ppr v
  | wrcfgGearRatio v => exact hwrcfg .gearRatio v
  | wrcfgTickFreq v => exact hwrcfg .tickFreq v
  | wrcfgActPeriod v => exact hwrcfg .actPeriod v
  | wrcfgLowThreshold v => exact hwrcfg .lowThreshold v

theorem index_cfgRegs (k : Fin 10) : cfgRegs[k].index = k := by
  revert k
  decide

theorem CfgReg.index_lt (r : CfgReg) : r.index < 10 := by cases r <;> decide

theorem CfgReg.index_toNat (r : CfgReg) : (BitVec.ofNat 4 r.index).toNat = r.index := by
  have := r.index_lt
  rw [BitVec.toNat_ofNat]
  omega

theorem encode_wrcfg (r : CfgReg) (v : Data) : encode (wrcfg r v) = packWord 9 (BitVec.ofNat 4 r.index) v := by
  cases r <;> rfl

/-- An index below 10 selects the register that has it. -/
theorem decodeWrcfg_of_index {w : OpWord} {r : CfgReg} (h : (idxField w).toNat = r.index) :
    decodeWrcfg w = .ok (wrcfg r (dataField w)) := by
  rw [decodeWrcfg, h]
  cases r <;> rfl

/-- No other index selects a register. -/
theorem decodeWrcfg_of_ge {w : OpWord} (h : 10 ≤ (idxField w).toNat) : decodeWrcfg w = .error .noSuchCfgRegister := by
  unfold decodeWrcfg
  split
  case h_11 => rfl
  all_goals omega

theorem decodeWrcfg_ok (w : OpWord) (j : Instr) :
    decodeWrcfg w = .ok j ↔ ∃ r : CfgReg, (idxField w).toNat = r.index ∧ wrcfg r (dataField w) = j := by
  constructor
  · intro h
    obtain hlt | hge := lt_or_ge (idxField w).toNat 10
    · have hr := (index_cfgRegs ⟨_, hlt⟩).symm
      rw [decodeWrcfg_of_index hr] at h
      exact ⟨_, hr, Except.ok.inj h⟩
    · rw [decodeWrcfg_of_ge hge] at h
      cases h
  · rintro ⟨r, hr, rfl⟩
    exact decodeWrcfg_of_index hr

end Sys2Proof.Machine

/-! ## Decoding and encoding are inverse (R51 to R53, R56) -/

namespace Sys2Proof.Machine

theorem decode_encode_plain : ∀ i ∈ plainInstrs, decode (encode i) = .ok i := by decide

theorem encode_edge_toNat (raw : Raw) : (encode (.edge raw)).toNat = 2 * 2 ^ 36 + raw.toNat := by
  rw [encode, packWord_toNat, edgeData_toNat]
  rfl

theorem decode_encode_edge (raw : Raw) : decode (encode (.edge raw)) = .ok (.edge raw) := by
  have hop : opField (encode (.edge raw)) = 2 := opField_packWord ..
  have hhigh : highField (encode (.edge raw)) = 0#16 := BitVec.eq_of_toNat_eq (by
    rw [highField_toNat, encode_edge_toNat, BitVec.toNat_zero]
    omega)
  have hraw : rawField (encode (.edge raw)) = raw := BitVec.eq_of_toNat_eq (by
    rw [rawField_toNat, encode_edge_toNat]
    omega)
  rw [decode, hop]
  exact (decodeEdge_ok _ _).2 ⟨idxField_packWord .., hhigh, congrArg _ hraw⟩

theorem decode_encode_settgt (v : Data) : decode (encode (.settgt v)) = .ok (.settgt v) := by
  have hop : opField (encode (.settgt v)) = 5 := opField_packWord ..
  rw [decode, hop]
  exact (decodeSettgt_ok _ _).2 ⟨idxField_packWord .., congrArg _ (dataField_packWord ..)⟩

theorem decode_encode_wrcfg (r : CfgReg) (v : Data) : decode (encode (wrcfg r v)) = .ok (wrcfg r v) := by
  rw [encode_wrcfg, decode, opField_packWord]
  refine (decodeWrcfg_ok _ _).2 ⟨r, ?_, ?_⟩
  · rw [idxField_packWord, r.index_toNat]
  · rw [dataField_packWord]

/-- Settles O2, by the fields of the word that is written for each operation. -/
theorem decodeOfEncode : Obligations.DecodeOfEncode :=
  forall_instr decode_encode_plain decode_encode_edge decode_encode_settgt decode_encode_wrcfg

theorem encode_injective : Function.Injective encode := by
  intro i j h
  exact Except.ok.inj ((decodeOfEncode i).symm.trans ((congrArg decode h).trans (decodeOfEncode j)))

/-- A word with the three fields of an encoding is that encoding. -/
theorem encode_eq_of_fields {w : OpWord} {i : Instr} {op idx : BitVec 4} {data : Data}
    (hi : encode i = packWord op idx data) (hop : (opField w).toNat = op.toNat) (hidx : idxField w = idx)
    (hdata : dataField w = data) : encode i = w := by
  rw [hi, ← BitVec.eq_of_toNat_eq hop, ← hidx, ← hdata, packWord_fields]

theorem encode_of_decodePlain {w : OpWord} {i j : Instr} {op : BitVec 4} (h : decodePlain w i = .ok j)
    (hi : encode i = packWord op 0 0) (hop : (opField w).toNat = op.toNat) : encode j = w := by
  obtain ⟨hidx, hdata, rfl⟩ := (decodePlain_ok w i j).1 h
  exact encode_eq_of_fields hi hop hidx hdata

/-- EDGE's data field where its high half is 0 (R51, R56). -/
theorem dataField_of_high_zero {w : OpWord} (h : highField w = 0) : dataField w = 0#16 ++ rawField w := by
  have hhigh : w.toNat / 2 ^ 16 % 2 ^ 16 = 0 := by rw [← highField_toNat, h]; rfl
  apply BitVec.eq_of_toNat_eq
  rw [edgeData_toNat, dataField_toNat, rawField_toNat]
  omega

/-- Settles O3, by the branches of the decoder: each fixes the three fields of the word. -/
theorem encodeOfDecode : Obligations.EncodeOfDecode := by
  intro w i h
  unfold decode at h
  split at h
  case h_1 hop | h_3 hop | h_4 hop | h_6 hop | h_7 hop | h_8 hop | h_10 hop =>
    exact encode_of_decodePlain h rfl hop
  case h_2 hop =>
    obtain ⟨hidx, hhigh, rfl⟩ := (decodeEdge_ok w i).1 h
    exact encode_eq_of_fields rfl hop hidx (dataField_of_high_zero hhigh)
  case h_5 hop =>
    obtain ⟨hidx, rfl⟩ := (decodeSettgt_ok w i).1 h
    exact encode_eq_of_fields rfl hop hidx rfl
  case h_9 hop =>
    obtain ⟨r, hidx, rfl⟩ := (decodeWrcfg_ok w i).1 h
    exact encode_eq_of_fields (encode_wrcfg r _) hop (BitVec.eq_of_toNat_eq (hidx.trans r.index_toNat.symm)) rfl
  case h_11 => cases h

/-- The legal words are the encodings (R53). -/
theorem decode_ok_iff (w : OpWord) (i : Instr) : decode w = .ok i ↔ encode i = w := by
  refine ⟨encodeOfDecode w i, ?_⟩
  rintro rfl
  exact decodeOfEncode i

end Sys2Proof.Machine

/-! ## The legal words (R56, R58) -/

namespace Sys2Proof.Machine

/-- The well-formedness check in the numbers of a word's fields (R50). -/
theorem legal_iff (w : OpWord) :
    OpWord.legal w = true ↔
      (1 ≤ w.toNat / 2 ^ 36 ∧ w.toNat / 2 ^ 36 ≤ 10) ∧
      (w.toNat / 2 ^ 36 = 9 → w.toNat / 2 ^ 32 % 16 ≤ 9) ∧
      (w.toNat / 2 ^ 36 ≠ 9 → w.toNat / 2 ^ 32 % 16 = 0) ∧
      (w.toNat / 2 ^ 36 ≠ 2 → w.toNat / 2 ^ 36 ≠ 5 → w.toNat / 2 ^ 36 ≠ 9 → w.toNat % 2 ^ 32 = 0) ∧
      (w.toNat / 2 ^ 36 = 2 → w.toNat / 2 ^ 16 % 2 ^ 16 = 0) := by
  simp only [OpWord.legal, opcodeAssigned, cfgIndexLegal, idxLegal, dataLegal, edgeLegal, Bool.and_eq_true,
    Bool.or_eq_true, decide_eq_true_eq, bne_iff_ne, beq_iff_eq, ne_eq, ← BitVec.toNat_inj, opField_toNat,
    idxField_toNat, dataField_toNat, highField_toNat, BitVec.reduceToNat]
  omega

/-- The encoder writes legal words only. -/
theorem legal_encode (i : Instr) : OpWord.legal (encode i) = true := by
  refine forall_instr (P := fun i => OpWord.legal (encode i) = true) (by decide) ?_ ?_ ?_ i
  · intro raw
    have hraw := raw.isLt
    rw [legal_iff, encode_edge_toNat]
    omega
  · intro v
    have hv := v.isLt
    have hword : (encode (.settgt v)).toNat = 5 * 2 ^ 36 + v.toNat := packWord_toNat ..
    rw [legal_iff, hword]
    omega
  · intro r v
    have hr := r.index_lt
    have hv := v.isLt
    have hword : (encode (wrcfg r v)).toNat = 9 * 2 ^ 36 + r.index * 2 ^ 32 + v.toNat := by
      rw [encode_wrcfg, packWord_toNat, r.index_toNat]
      rfl
    rw [legal_iff, hword]
    omega

theorem decodePlain_isOk {w : OpWord} (hidx : w.toNat / 2 ^ 32 % 16 = 0) (hdata : w.toNat % 2 ^ 32 = 0) (i : Instr) :
    ∃ j, decodePlain w i = .ok j := by
  refine ⟨i, (decodePlain_ok w i i).2 ⟨BitVec.eq_of_toNat_eq ?_, BitVec.eq_of_toNat_eq ?_, rfl⟩⟩
  · rw [idxField_toNat, hidx]
    rfl
  · rw [dataField_toNat, hdata]
    rfl

theorem decodeEdge_isOk {w : OpWord} (hidx : w.toNat / 2 ^ 32 % 16 = 0) (hhigh : w.toNat / 2 ^ 16 % 2 ^ 16 = 0) :
    ∃ j, decodeEdge w = .ok j := by
  refine ⟨_, (decodeEdge_ok w _).2 ⟨BitVec.eq_of_toNat_eq ?_, BitVec.eq_of_toNat_eq ?_, rfl⟩⟩
  · rw [idxField_toNat, hidx]
    rfl
  · rw [highField_toNat, hhigh]
    rfl

theorem decodeSettgt_isOk {w : OpWord} (hidx : w.toNat / 2 ^ 32 % 16 = 0) : ∃ j, decodeSettgt w = .ok j := by
  refine ⟨_, (decodeSettgt_ok w _).2 ⟨BitVec.eq_of_toNat_eq ?_, rfl⟩⟩
  rw [idxField_toNat, hidx]
  rfl

theorem decodeWrcfg_isOk {w : OpWord} (hidx : w.toNat / 2 ^ 32 % 16 ≤ 9) : ∃ j, decodeWrcfg w = .ok j := by
  have hlt : (idxField w).toNat < 10 := by
    rw [idxField_toNat]
    omega
  exact ⟨_, decodeWrcfg_of_index (index_cfgRegs ⟨_, hlt⟩).symm⟩

/-- Every word the well-formedness check accepts decodes. -/
theorem decode_isOk_of_legal {w : OpWord} (h : OpWord.legal w = true) : ∃ i, decode w = .ok i := by
  obtain ⟨hop, hcfg, hidx, hdata, hhigh⟩ := (legal_iff w).1 h
  rw [← opField_toNat] at hop hcfg hidx hdata hhigh
  unfold decode
  split
  case h_1 op | h_3 op | h_4 op | h_6 op | h_7 op | h_8 op | h_10 op =>
    exact decodePlain_isOk (hidx (by omega)) (hdata (by omega) (by omega) (by omega)) _
  case h_2 op => exact decodeEdge_isOk (hidx (by omega)) (hhigh op)
  case h_5 op => exact decodeSettgt_isOk (hidx (by omega))
  case h_9 op => exact decodeWrcfg_isOk (hcfg op)
  case h_11 =>
    simp only [imp_false] at *
    omega

theorem decode_isOk_iff_legal (w : OpWord) : (∃ i, decode w = .ok i) ↔ OpWord.legal w = true := by
  refine ⟨?_, decode_isOk_of_legal⟩
  rintro ⟨i, hd⟩
  rw [← encodeOfDecode w i hd]
  exact legal_encode i

theorem decode_isError_iff (w : OpWord) : (∃ why, decode w = .error why) ↔ ¬ ∃ i, decode w = .ok i := by
  cases decode w <;> simp

/-- Settles O5: the illegal words are those the well-formedness check does not accept. -/
theorem illegalWordsAreThose : Obligations.IllegalWordsAreThose := by
  refine fun w => ⟨?_, decode_isOk_iff_legal w⟩
  rw [decode_isError_iff, decode_isOk_iff_legal, legal_iff]
  omega

end Sys2Proof.Machine

/-! ## The number of legal words (R58): one for each operation with its operands -/

namespace Sys2Proof.Machine

/-- The operands of an operation: one of the seven operations without any, EDGE's, SETTGT's, or WRCFG's. -/
abbrev Operands := Fin 7 ⊕ Raw ⊕ Data ⊕ CfgReg × Data

/-- The operation of given operands. -/
def Operands.instr : Operands → Instr
  | .inl k => plainInstrs[k]
  | .inr (.inl raw) => .edge raw
  | .inr (.inr (.inl v)) => .settgt v
  | .inr (.inr (.inr (r, v))) => wrcfg r v

/-- The operands of a given operation. -/
def operandsOf : Instr → Operands
  | .wrap => .inl 0
  | .ovfchk => .inl 1
  | .tick => .inl 2
  | .getspd => .inl 3
  | .getduty => .inl 4
  | .getstat => .inl 5
  | .init => .inl 6
  | .edge raw => .inr (.inl raw)
  | .settgt v => .inr (.inr (.inl v))
  | .wrcfgKp v => .inr (.inr (.inr (.kp, v)))
  | .wrcfgKi v => .inr (.inr (.inr (.ki, v)))
  | .wrcfgKd v => .inr (.inr (.inr (.kd, v)))
  | .wrcfgGainDen v => .inr (.inr (.inr (.gainDen, v)))
  | .wrcfgMaxSpeed v => .inr (.inr (.inr (.maxSpeed, v)))
  | .wrcfgPpr v => .inr (.inr (.inr (.ppr, v)))
  | .wrcfgGearRatio v => .inr (.inr (.inr (.gearRatio, v)))
  | .wrcfgTickFreq v => .inr (.inr (.inr (.tickFreq, v)))
  | .wrcfgActPeriod v => .inr (.inr (.inr (.actPeriod, v)))
  | .wrcfgLowThreshold v => .inr (.inr (.inr (.lowThreshold, v)))

theorem instr_operandsOf (i : Instr) : (operandsOf i).instr = i := by cases i <;> rfl

theorem operandsOf_plainInstrs : ∀ k : Fin 7, operandsOf plainInstrs[k] = .inl k := by decide

theorem operandsOf_instr (o : Operands) : operandsOf o.instr = o := by
  rcases o with k | raw | v | ⟨r, v⟩
  · exact operandsOf_plainInstrs k
  · rfl
  · rfl
  · cases r <;> rfl

/-- An operation is its operands. -/
def instrEquivOperands : Instr ≃ Operands where
  toFun := operandsOf
  invFun := Operands.instr
  left_inv := instr_operandsOf
  right_inv := operandsOf_instr

/-- The configuration registers are numbered 0 to 9. -/
def cfgRegEquivFin : CfgReg ≃ Fin 10 where
  toFun r := ⟨r.index, r.index_lt⟩
  invFun k := cfgRegs[k]
  left_inv r := by cases r <;> rfl
  right_inv k := Fin.ext (index_cfgRegs k)

theorem card_bitVec (n : Nat) : Nat.card (BitVec n) = 2 ^ n :=
  (Nat.card_congr BitVec.equivFin.toEquiv).trans (Nat.card_fin _)

theorem card_cfgReg : Nat.card CfgReg = 10 := (Nat.card_congr cfgRegEquivFin).trans (Nat.card_fin 10)

theorem card_instr : Nat.card Instr = 7 + 2 ^ 16 + 2 ^ 32 + 10 * 2 ^ 32 := by
  have hreg : Finite CfgReg := .of_equiv _ cfgRegEquivFin.symm
  calc Nat.card Instr
      = Nat.card Operands := Nat.card_congr instrEquivOperands
    _ = 7 + (2 ^ 16 + (2 ^ 32 + 10 * 2 ^ 32)) := by
        rw [Nat.card_sum, Nat.card_sum, Nat.card_sum, Nat.card_prod, Nat.card_fin, card_bitVec, card_bitVec, card_cfgReg]
    _ = 7 + 2 ^ 16 + 2 ^ 32 + 10 * 2 ^ 32 := by rw [Nat.add_assoc, Nat.add_assoc]

/-- The word of an operation, with its being legal. -/
def legalWord (i : Instr) : { w : OpWord // ∃ i, decode w = .ok i } := ⟨encode i, i, decodeOfEncode i⟩

theorem legalWord_bijective : Function.Bijective legalWord := by
  refine ⟨fun i j h => encode_injective (congrArg Subtype.val h), ?_⟩
  rintro ⟨w, i, hd⟩
  exact ⟨i, Subtype.ext (encodeOfDecode w i hd)⟩

/-- Settles O6: there are as many legal words as operations. -/
theorem legalWordCount : Obligations.LegalWordCount :=
  (Nat.card_congr (Equiv.ofBijective legalWord legalWord_bijective)).symm.trans card_instr

end Sys2Proof.Machine

/-! ## The opcode map (R52) -/

namespace Sys2Proof.Machine

theorem selects_iff (row : Row) (w : OpWord) : row.selects w = true ↔ w &&& row.mask = row.pattern := by
  simp [Row.selects]

/-- Two words that agree under a mask agree in every field that is all ones in it. -/
theorem extractLsb'_eq_of_masked {w mask pattern : OpWord} {start len : Nat} (h : w &&& mask = pattern)
    (hmask : mask.extractLsb' start len = BitVec.allOnes len) :
    w.extractLsb' start len = pattern.extractLsb' start len := by
  rw [← h, BitVec.extractLsb'_and, hmask, BitVec.and_allOnes]

/-- A row whose mask is all ones selects its pattern only. -/
theorem eq_of_plainRow_selects {p w : OpWord} (h : (plainRow p).selects w = true) : p = w := by
  have hmask : w &&& (plainRow p).mask = w := BitVec.and_allOnes
  exact ((selects_iff _ _).1 h).symm.trans hmask

/-- A row that masks op and idx selects by these two fields. -/
theorem eq_of_dataRow_selects {op idx : BitVec 4} {w : OpWord} (h : (dataRow (packWord op idx 0)).selects w = true) :
    packWord op idx (dataField w) = w := by
  have hmask : w &&& 0xFF00000000 = packWord op idx 0 := (selects_iff _ _).1 h
  have hop : opField w = op := (extractLsb'_eq_of_masked hmask (by decide)).trans (opField_packWord op idx 0)
  have hidx : idxField w = idx := (extractLsb'_eq_of_masked hmask (by decide)).trans (idxField_packWord op idx 0)
  rw [← hop, ← hidx, packWord_fields]

/-- EDGE's row masks all but the raw value. -/
theorem encode_of_edgeRow_selects {raw : Raw} {w : OpWord} (h : (rowOf (.edge raw)).selects w = true) :
    encode (.edge (rawField w)) = w := by
  have hmask : w &&& 0xFFFFFF0000 = 0x2000000000 := (selects_iff _ _).1 h
  have hop : opField w = 2 := extractLsb'_eq_of_masked hmask (by decide)
  have hidx : idxField w = 0 := extractLsb'_eq_of_masked hmask (by decide)
  have hhigh : highField w = 0 := extractLsb'_eq_of_masked hmask (by decide)
  exact encode_eq_of_fields rfl (congrArg BitVec.toNat hop) hidx (dataField_of_high_zero hhigh)

theorem rowOf_plain : ∀ i ∈ plainInstrs, rowOf i = plainRow (encode i) := by decide

theorem rowOf_settgt (v : Data) : rowOf (.settgt v) = dataRow (packWord 5 0 0) := rfl

theorem rowOf_wrcfg (r : CfgReg) (v : Data) :
    rowOf (wrcfg r v) = dataRow (packWord 9 (BitVec.ofNat 4 r.index) 0) := by
  cases r <;> rfl

theorem rowOf_selects_encode (i : Instr) : (rowOf i).selects (encode i) = true := by
  refine forall_instr (P := fun i => (rowOf i).selects (encode i) = true) (by decide) ?_ ?_ ?_ i
  · intro raw
    exact (selects_iff _ _).2 (Laws.RowSelected.edge raw)
  · intro v
    exact (selects_iff _ _).2 (Laws.RowSelected.settgt v)
  · intro r v
    rw [selects_iff, rowOf_wrcfg, encode_wrcfg]
    exact Laws.RowSelected.pack_and_data ..

/-- A word that selects the row of an operation is the encoding of that operation with some operand. -/
theorem exists_encode_of_selects {i : Instr} {w : OpWord} :
    (rowOf i).selects w = true → ∃ j, rowOf j = rowOf i ∧ encode j = w := by
  refine forall_instr (P := fun i => (rowOf i).selects w = true → ∃ j, rowOf j = rowOf i ∧ encode j = w) ?_ ?_ ?_ ?_ i
  · intro i hi h
    rw [rowOf_plain i hi] at h
    exact ⟨i, rfl, eq_of_plainRow_selects h⟩
  · intro raw h
    exact ⟨.edge (rawField w), rfl, encode_of_edgeRow_selects h⟩
  · intro v h
    rw [rowOf_settgt] at h
    exact ⟨.settgt (dataField w), rfl, eq_of_dataRow_selects h⟩
  · intro r v h
    rw [rowOf_wrcfg] at h
    refine ⟨wrcfg r (dataField w), by rw [rowOf_wrcfg, rowOf_wrcfg], ?_⟩
    rw [encode_wrcfg]
    exact eq_of_dataRow_selects h

/-- One operation of each row, in the table's order. -/
def rowSamples : List Instr :=
  [.wrap, .edge 0, .ovfchk, .tick, .settgt 0, .getspd, .getduty, .getstat] ++ cfgRegs.map (wrcfg · 0) ++ [.init]

theorem opcodeRows_eq : opcodeRows = rowSamples.map rowOf := rfl

theorem exists_rowOf_of_mem {row : Row} (h : row ∈ opcodeRows) : ∃ i, rowOf i = row := by
  rw [opcodeRows_eq, List.mem_map] at h
  obtain ⟨i, -, hi⟩ := h
  exact ⟨i, hi⟩

theorem rowOf_mem (i : Instr) : rowOf i ∈ opcodeRows := by
  refine forall_instr (P := fun i => rowOf i ∈ opcodeRows) (by decide) ?_ ?_ ?_ i
  · intro raw
    simp [opcodeRows, rowOf]
  · intro v
    simp [opcodeRows, rowOf]
  · intro r v
    rw [rowOf_wrcfg]
    cases r <;> decide

/-- A row of the map selects the encodings of its operation and no other word. -/
theorem selects_iff_encode {row : Row} (hrow : row ∈ opcodeRows) (w : OpWord) :
    row.selects w = true ↔ ∃ i, rowOf i = row ∧ encode i = w := by
  obtain ⟨i, rfl⟩ := exists_rowOf_of_mem hrow
  refine ⟨exists_encode_of_selects, ?_⟩
  rintro ⟨j, hj, rfl⟩
  rw [← hj]
  exact rowOf_selects_encode j

/-- Settles O4: a word has one reading as an encoding, and with it one row. -/
theorem opcodeMapAgreesWithDecoder : Obligations.OpcodeMapAgreesWithDecoder := by
  refine fun w => ⟨fun r₁ hr₁ r₂ hr₂ h₁ h₂ => ?_, fun i hd => ⟨rowOf_mem i, ?_⟩, fun why hd r hr => ?_⟩
  · obtain ⟨i₁, rfl, hi₁⟩ := (selects_iff_encode hr₁ w).1 h₁
    obtain ⟨i₂, rfl, hi₂⟩ := (selects_iff_encode hr₂ w).1 h₂
    rw [encode_injective (hi₁.trans hi₂.symm)]
  · rw [← encodeOfDecode w i hd]
    exact rowOf_selects_encode i
  · refine Bool.eq_false_of_not_eq_true fun h => ?_
    obtain ⟨i, -, rfl⟩ := (selects_iff_encode hr w).1 h
    rw [decodeOfEncode i] at hd
    cases hd

end Sys2Proof.Machine

/-! ## The response word (R54) -/

namespace Sys2Proof.Machine

theorem responseWord_toNat (r : Response) : r.word.toNat = r.code.number.toNat * 2 ^ 32 + r.data.toNat := by
  rw [Response.word, BitVec.toNat_append, ← Nat.shiftLeft_add_eq_or_of_lt r.data.isLt, Nat.shiftLeft_eq]

theorem codeNumber_injective : Function.Injective Code.number := by
  intro c₁ c₂
  cases c₁ <;> cases c₂ <;> decide

theorem responseWord_fields (r : Response) :
    r.word.toNat / 2 ^ 32 = r.code.number.toNat ∧ r.word.toNat % 2 ^ 32 = r.data.toNat := by
  have hdata := r.data.isLt
  rw [responseWord_toNat]
  omega

theorem responseWord_injective : Function.Injective Response.word := by
  intro r₁ r₂ h
  obtain ⟨hcode₁, hdata₁⟩ := responseWord_fields r₁
  obtain ⟨hcode₂, hdata₂⟩ := responseWord_fields r₂
  rw [h] at hcode₁ hdata₁
  have hcode : r₁.code = r₂.code := codeNumber_injective (BitVec.eq_of_toNat_eq (hcode₁.symm.trans hcode₂))
  have hdata : r₁.data = r₂.data := BitVec.eq_of_toNat_eq (hdata₁.symm.trans hdata₂)
  exact congrArg₂ Response.mk hcode hdata

/-- Settles O7: the word as a number gives the two fields, and the fields give the response. -/
theorem responseWordFields : Obligations.ResponseWordFields :=
  ⟨responseWord_fields, ⟨rfl, rfl, rfl, rfl, rfl⟩, fun _ _ h => responseWord_injective h⟩

end Sys2Proof.Machine

/-! ## Worked encodings and illegal words (R58, R61) -/

namespace Sys2Proof.Machine

/-- One computation of the encoder gives both readings of a worked encoding. -/
theorem encode_and_decode {i : Instr} {w : OpWord} (h : encode i = w) : encode i = w ∧ decode w = .ok i :=
  ⟨h, (decode_ok_iff w i).2 h⟩

/-- Settles O1, by evaluating the encoder on R61's operations and the decoder on its illegal words. -/
theorem workedEncodings : Obligations.WorkedEncodings :=
  ⟨encode_and_decode rfl, encode_and_decode rfl, encode_and_decode rfl, encode_and_decode rfl, encode_and_decode rfl,
    rfl, rfl, rfl, ⟨_, rfl⟩, ⟨_, rfl⟩, ⟨_, rfl⟩, ⟨_, rfl⟩⟩

/-- Settles O9, from what a word on the pins leaves where it does not decode. -/
theorem illegalWordIsAnswered : Obligations.IllegalWordIsAnswered := by
  intro s w why hp hd
  rw [step_op hp, afterWord_of_error s hd]

end Sys2Proof.Machine

/-! ## The assembler (R59) -/

namespace Sys2Proof.Machine

theorem operand32_of_le {v : Nat} (h : v ≤ 0xFFFFFFFF) : operand32 v = some (BitVec.ofNat 32 v) :=
  if_pos (by omega)

theorem operand32_of_gt {v : Nat} (h : ¬ v ≤ 0xFFFFFFFF) : operand32 v = none :=
  if_neg (by omega)

/-- The word of fields given as numbers in range (R50). -/
theorem packWord_ofNat {op : BitVec 4} {idx v : Nat} (hidx : idx < 16) (hv : v < 2 ^ 32) :
    packWord op (BitVec.ofNat 4 idx) (BitVec.ofNat 32 v) =
      BitVec.ofNat 40 (op.toNat * 2 ^ 36 + idx * 2 ^ 32 + v) := by
  have hop := op.isLt
  apply BitVec.eq_of_toNat_eq
  rw [packWord_toNat, BitVec.toNat_ofNat, BitVec.toNat_ofNat, BitVec.toNat_ofNat]
  omega

theorem encode_edge_ofNat {raw : Nat} (h : raw ≤ 0xFFFF) :
    encode (.edge (BitVec.ofNat 16 raw)) = BitVec.ofNat 40 (0x2000000000 + raw) := by
  apply BitVec.eq_of_toNat_eq
  rw [encode_edge_toNat, BitVec.toNat_ofNat, BitVec.toNat_ofNat]
  omega

theorem encode_settgt_ofNat {v : Nat} (h : v ≤ 0xFFFFFFFF) :
    encode (.settgt (BitVec.ofNat 32 v)) = BitVec.ofNat 40 (0x5000000000 + v) :=
  packWord_ofNat (op := 5) (idx := 0) (by decide) (by omega)

theorem encode_wrcfg_ofNat (r : CfgReg) {v : Nat} (h : v ≤ 0xFFFFFFFF) :
    encode (wrcfg r (BitVec.ofNat 32 v)) = BitVec.ofNat 40 (0x9000000000 + r.index * 2 ^ 32 + v) := by
  rw [encode_wrcfg, packWord_ofNat (by have := r.index_lt; omega) (by omega)]
  rfl

theorem asmWrcfg_of_le (r : CfgReg) {v : Nat} (h : v ≤ 0xFFFFFFFF) :
    asmWrcfg r.index v = some (.op (encode (wrcfg r (BitVec.ofNat 32 v)))) := by
  rw [asmWrcfg, operand32_of_le h]
  cases r <;> rfl

theorem asmWrcfg_of_gt (i : Nat) {v : Nat} (h : ¬ v ≤ 0xFFFFFFFF) : asmWrcfg i v = none := by
  rw [asmWrcfg, operand32_of_gt h]

theorem asmWrcfg_of_index_ge {i : Nat} (hi : ¬ i ≤ 9) (v : Nat) : asmWrcfg i v = none := by
  unfold asmWrcfg
  split
  · rfl
  · split
    case h_11 => rfl
    all_goals omega

theorem asmWrcfg_eq (i v : Nat) :
    asmWrcfg i v =
      if i ≤ 9 ∧ v ≤ 0xFFFFFFFF then some (.op (BitVec.ofNat 40 (0x9000000000 + i * 2 ^ 32 + v))) else none := by
  split
  case isTrue h =>
    obtain ⟨hi, hv⟩ := h
    obtain ⟨r, rfl⟩ : ∃ r : CfgReg, r.index = i := ⟨_, index_cfgRegs ⟨i, by omega⟩⟩
    rw [asmWrcfg_of_le r hv, encode_wrcfg_ofNat r hv]
  case isFalse h =>
    by_cases hv : v ≤ 0xFFFFFFFF
    · exact asmWrcfg_of_index_ge (fun hi => h ⟨hi, hv⟩) v
    · exact asmWrcfg_of_gt i hv

theorem assemble_edge_eq (raw : Nat) :
    assemble (.edge raw) = if raw ≤ 0xFFFF then some [.op (BitVec.ofNat 40 (0x2000000000 + raw))] else none := by
  rw [assemble]
  split
  case isTrue h => rw [encode_edge_ofNat h]
  case isFalse => rfl

theorem assemble_settgt_eq (v : Nat) :
    assemble (.settgt v) = if v ≤ 0xFFFFFFFF then some [.op (BitVec.ofNat 40 (0x5000000000 + v))] else none := by
  rw [assemble]
  split_ifs with h
  · rw [operand32_of_le h, ← encode_settgt_ofNat h]
  · rw [operand32_of_gt h]

theorem assemble_wrcfg_eq (i v : Nat) :
    assemble (.wrcfg i v) =
      if i ≤ 9 ∧ v ≤ 0xFFFFFFFF then some [.op (BitVec.ofNat 40 (0x9000000000 + i * 2 ^ 32 + v))] else none := by
  rw [assemble, asmWrcfg_eq]
  split <;> rfl

theorem assemble_word_eq (w : Nat) :
    assemble (.word w) = if w ≤ 0xFFFFFFFFFF then some [.op (BitVec.ofNat 40 w)] else none := by
  rw [assemble]
  exact if_congr (by omega) rfl rfl

/-- Settles O41: each operand in range by the word of its encoding, each out of range by the check that refuses it. -/
theorem assemblerDoesNotTruncate : Obligations.AssemblerDoesNotTruncate :=
  ⟨assemble_edge_eq, assemble_settgt_eq, assemble_wrcfg_eq, assemble_word_eq⟩

end Sys2Proof.Machine

/-! ## SETUP (R60, R143, R144) -/

namespace Sys2Proof.Machine

/-- SETUP's ten writes: the registers and their operands, in order (R60). -/
def Setup.writes (p : Setup) : List (CfgReg × Nat) :=
  [(.kp, p.kp), (.ki, p.ki), (.kd, p.kd), (.gainDen, p.gainDen), (.maxSpeed, p.maxSpeed), (.ppr, p.ppr),
    (.gearRatio, p.gearRatio), (.tickFreq, p.tickFreq), (.actPeriod, p.actPeriod), (.lowThreshold, p.lowThreshold)]

/-- The word of one write. -/
def writeWord (x : CfgReg × Nat) : OpWord := encode (wrcfg x.1 (BitVec.ofNat 32 x.2))

/-- The configuration SETUP writes. -/
def Setup.cfg (p : Setup) : Cfg where
  kp := BitVec.ofNat 32 p.kp
  ki := BitVec.ofNat 32 p.ki
  kd := BitVec.ofNat 32 p.kd
  gainDen := BitVec.ofNat 32 p.gainDen
  maxSpeed := BitVec.ofNat 32 p.maxSpeed
  ppr := BitVec.ofNat 32 p.ppr
  gearRatio := BitVec.ofNat 32 p.gearRatio
  tickFreq := BitVec.ofNat 32 p.tickFreq
  actPeriod := BitVec.ofNat 32 p.actPeriod
  lowThreshold := BitVec.ofNat 32 p.lowThreshold

/-- What the assembler gives for one write. -/
def asmWrite (x : CfgReg × Nat) : Option PortInput := asmWrcfg x.1.index x.2

/-- A word the assembler gives. -/
def asmWord (w : OpWord) : Option PortInput := some (.op w)

theorem asmWord_injective : Function.Injective asmWord := fun _ _ h => PortInput.op.inj (Option.some.inj h)

theorem asmSetup_eq (p : Setup) : asmSetup p = allOrNone (p.writes.map asmWrite ++ [asmWord (encode .init)]) := rfl

theorem allOrNone_eq_some {xs : List (Option PortInput)} {es : List PortInput} (h : allOrNone xs = some es) :
    xs = es.map some := by
  induction xs generalizing es with
  | nil =>
    cases h
    rfl
  | cons x xs ih =>
    cases x with
    | none => cases h
    | some e =>
      cases hrest : allOrNone xs with
      | none => simp [allOrNone, hrest] at h
      | some rest =>
        simp only [allOrNone, hrest, Option.some.injEq] at h
        rw [← h, ih hrest, List.map_cons]

/-- A write that assembles has its operand in range. -/
theorem asmWrite_of_ne_none {x : CfgReg × Nat} (h : asmWrite x ≠ none) :
    x.2 < 2 ^ 32 ∧ asmWrite x = asmWord (writeWord x) := by
  by_cases hv : x.2 ≤ 0xFFFFFFFF
  · exact ⟨by omega, asmWrcfg_of_le x.1 hv⟩
  · exact absurd (asmWrcfg_of_gt _ hv) h

/-- SETUP assembles with its operands in range only, to its ten writes and INIT. -/
theorem assemble_setup {p : Setup} {ws : List OpWord} (h : assemble (.setup p) = some (ws.map PortInput.op)) :
    (∀ x ∈ p.writes, x.2 < 2 ^ 32) ∧ ws = p.writes.map writeWord ++ [encode .init] := by
  have hlist : p.writes.map asmWrite ++ [asmWord (encode .init)] = ws.map asmWord :=
    (allOrNone_eq_some ((asmSetup_eq p).symm.trans h)).trans (List.map_map ..)
  have hwrite : ∀ x ∈ p.writes, x.2 < 2 ^ 32 ∧ asmWrite x = asmWord (writeWord x) := by
    intro x hx
    have hmem : asmWrite x ∈ ws.map asmWord := by
      rw [← hlist]
      exact List.mem_append_left _ (List.mem_map_of_mem hx)
    obtain ⟨w, -, hw⟩ := List.mem_map.1 hmem
    exact asmWrite_of_ne_none (hw ▸ Option.some_ne_none _)
  refine ⟨fun x hx => (hwrite x hx).1, asmWord_injective.list_map ?_⟩
  rw [← hlist, List.map_append, List.map_map, List.map_congr_left fun x hx => (hwrite x hx).2]
  rfl

theorem answerOf_wrcfg (r : CfgReg) (v : Data) (b : Block) :
    answerOf (wrcfg r v) b = whenUnconfigured b (respondOk { b with cfg := b.cfg.set r v } 0) := by
  cases r <;> rfl

/-- One write in UNCONFIGURED mode (R108). -/
theorem afterWord_write {s : State} (hu : s.block.mode = .unconfigured) (x : CfgReg × Nat) :
    (afterWord s (writeWord x)).block = { s.block with cfg := s.block.cfg.set x.1 (BitVec.ofNat 32 x.2) } := by
  rw [writeWord, afterWord_of_ok s (decodeOfEncode _), answerOf_wrcfg, whenUnconfigured_unconfigured _ _ hu]
  rfl

/-- Writes in UNCONFIGURED mode change the configuration only, one after another. -/
theorem afterWords_writes {s : State} (hu : s.block.mode = .unconfigured) (xs : List (CfgReg × Nat)) :
    (afterWords s (xs.map writeWord)).block =
      { s.block with cfg := xs.foldl (fun c x => c.set x.1 (BitVec.ofNat 32 x.2)) s.block.cfg } := by
  induction xs generalizing s with
  | nil => rfl
  | cons x xs ih =>
    have hx := afterWord_write hu x
    rw [List.map_cons, afterWords, ih (by rw [hx]; exact hu), hx]
    rfl

/-- The ten writes from reset. -/
theorem afterWords_setup_writes {s : State} (hs : s.block = Block.reset) (p : Setup) :
    (afterWords s (p.writes.map writeWord)).block = { Block.reset with cfg := p.cfg } := by
  rw [afterWords_writes (by rw [hs]; rfl), hs]
  rfl

/-- INIT in UNCONFIGURED mode with a configuration CHECK_CFG accepts (R110). -/
theorem afterWord_init {s : State} (hu : s.block.mode = .unconfigured) (hc : checkCfg s.block.cfg = 0) :
    (afterWord s (encode .init)).block = startBlock s.block ∧
    (afterWord s (encode .init)).resp = some ⟨.ok, BitVec.ofNat 32 (deriveScale s.block.cfg)⟩ := by
  have ha : answerOf .init s.block = respondOk (startBlock s.block) (BitVec.ofNat 32 (deriveScale s.block.cfg)) := by
    rw [answerOf, whenUnconfigured_unconfigured _ _ hu]
    obtain ⟨-, h⟩ | ⟨hne, -⟩ := initAnswer_cases s.block
    · exact h
    · exact absurd hc hne
  rw [afterWord_of_ok s (decodeOfEncode .init), ha]
  exact ⟨rfl, rfl⟩

/-- A configuration without a cause is accepted (R109). -/
theorem checkCfg_of_noCause {c : Cfg} (hg : c.gainDen ≠ 0) (hd : divisor c ≠ 0)
    (hfit : c.tickFreq.toNat * 60 / divisor c ≤ 0xFFFFFFFF) : checkCfg c = 0 := by
  refine (checkCfg_eq_zero c).2 ⟨by simpa [zeroPprGear] using hd, by simpa [zeroGainDen] using hg, ?_⟩
  refine Bool.eq_false_of_not_eq_true fun h => ?_
  have := ((scaleRange_iff c).1 h).2
  omega

theorem ofNat32_toNat {v : Nat} (h : v < 2 ^ 32) : (BitVec.ofNat 32 v).toNat = v := Nat.mod_eq_of_lt h

/-- The configuration SETUP writes has the operands as numbers, where they are in range. -/
theorem setup_cfg_numbers {p : Setup} (hrange : ∀ x ∈ p.writes, x.2 < 2 ^ 32) :
    divisor p.cfg = p.ppr * p.gearRatio ∧ p.cfg.tickFreq.toNat = p.tickFreq ∧ p.cfg.gainDen.toNat = p.gainDen := by
  have hppr : p.cfg.ppr.toNat = p.ppr := ofNat32_toNat (hrange (.ppr, p.ppr) (by simp [Setup.writes]))
  have hgear : p.cfg.gearRatio.toNat = p.gearRatio :=
    ofNat32_toNat (hrange (.gearRatio, p.gearRatio) (by simp [Setup.writes]))
  exact ⟨by rw [divisor, hppr, hgear], ofNat32_toNat (hrange (.tickFreq, p.tickFreq) (by simp [Setup.writes])),
    ofNat32_toNat (hrange (.gainDen, p.gainDen) (by simp [Setup.writes]))⟩

/-- Settles O40: the ten writes leave the configuration, which INIT then accepts. -/
theorem setupStartsTheBlock : Obligations.SetupStartsTheBlock := by
  intro s p ws hs hasm hgain hdiv hfit
  obtain ⟨hrange, rfl⟩ := assemble_setup hasm
  obtain ⟨hdivisor, htick, hden⟩ := setup_cfg_numbers hrange
  have hgain' : p.cfg.gainDen ≠ 0 := by
    intro h0
    rw [h0] at hden
    exact hgain hden.symm
  have hscale : deriveScale p.cfg = p.tickFreq * 60 / (p.ppr * p.gearRatio) := by
    rw [deriveScale_eq _ (hdivisor ▸ hdiv), hdivisor, htick]
  have hblock := afterWords_setup_writes hs p
  have hcheck : checkCfg p.cfg = 0 :=
    checkCfg_of_noCause hgain' (hdivisor ▸ hdiv) (by rw [hdivisor, htick]; exact hfit)
  obtain ⟨hstart, hresp⟩ := afterWord_init (s := afterWords s (p.writes.map writeWord))
    (by rw [hblock]; rfl) (by rw [hblock]; exact hcheck)
  rw [hblock] at hstart hresp
  rw [afterWords_append, ← hscale]
  exact ⟨rfl, hresp, hstart⟩

end Sys2Proof.Machine

/-! ## Words and modes in which an operation has no effect (R56, R58, R123) -/

namespace Sys2Proof.Machine

/-- An opcode whose operation has no operand has one legal word, with idx and data 0. -/
theorem decode_error_of_operandless {op : Nat} {w legal : OpWord} (hedge : op ≠ 2) (hsettgt : op ≠ 5)
    (hwrcfg : op ≠ 9) (hlegal : legal.toNat = op * 2 ^ 36) (hop : w.toNat / 2 ^ 36 = op) (hne : w ≠ legal) :
    ∃ why, decode w = .error why := by
  have hword : w.toNat ≠ op * 2 ^ 36 := fun h => hne (BitVec.eq_of_toNat_eq (h.trans hlegal.symm))
  refine (illegalWordsAreThose w).1.2 ?_
  omega

/-- The gate of R123, on the whole state. -/
theorem exec_of_notRunning {i : Instr} {s : State} (hi : needsRunning i = true) (hn : s.block.mode ≠ .running) :
    exec i s = .next (refusedWith .notRunning s) := by
  rw [exec_eq_deliver]
  cases i with
  | wrap | edge | ovfchk | tick | settgt => rw [answerOf, whenRunning_other _ _ hn]; rfl
  | _ => exact Bool.noConfusion hi

end Sys2Proof.Machine

/-! ## WRAP, OVFCHK and EXTEND (R65 to R67) -/

namespace Sys2Proof.Machine

theorem exec_wrap_running {s : State} (hr : s.block.mode = .running) :
    exec .wrap s = deliver (respondOk (recordWrap s.block) 0) s := by
  rw [exec_eq_deliver, answerOf, whenRunning_running _ _ hr]

theorem exec_ovfchk_running {s : State} (hr : s.block.mode = .running) :
    exec .ovfchk s =
      deliver (if s.block.ovfPend then respondOk (consumeWrap s.block) 1 else respondOk s.block 0) s := by
  rw [exec_eq_deliver, answerOf, whenRunning_running _ _ hr]

/-- ROLLOVER's increment in the numbers of R18. -/
theorem rollover_succ (r : Roll) : r + 1 = BitVec.ofNat 16 ((r.toNat + 1) % 2 ^ 16) :=
  BitVec.eq_of_toNat_eq (by simp [BitVec.toNat_add])

theorem consumeWrap_eq (b : Block) :
    consumeWrap b = { b with rollover := BitVec.ofNat 16 ((b.rollover.toNat + 1) % 2 ^ 16), ovfPend := false } := by
  rw [consumeWrap, uwrap16_succ, rollover_succ]

/-- Settles O15: the gate, and the one word of an opcode without operand. -/
theorem wrapExecutes : Obligations.WrapExecutes :=
  ⟨fun _ hr => exec_wrap_running hr, fun _ hn => exec_of_notRunning rfl hn, rfl,
    fun _ => decode_error_of_operandless (by decide) (by decide) (by decide) rfl⟩

/-- Settles O16: the gate, the branch on OVF_PEND, and the one word of an opcode without operand. -/
theorem ovfchkExecutes : Obligations.OvfchkExecutes := by
  refine ⟨fun s hr hp => ?_, fun s hr hp => ?_, fun s hn => exec_of_notRunning rfl hn, rfl,
    fun w => decode_error_of_operandless (by decide) (by decide) (by decide) rfl⟩
  · rw [exec_ovfchk_running hr, if_pos hp, consumeWrap_eq]
    rfl
  · rw [exec_ovfchk_running hr, hp]
    rfl

/-- Settles O17: the two branches of EXTEND; the conditions on LOW_THRESHOLD each rule one of them out. -/
theorem extendGivesTimestamp : Obligations.ExtendGivesTimestamp := by
  intro b raw
  have hraw := raw.isLt
  have hts := extendTs_toNat b raw
  obtain ⟨hpend, hlow, hblock⟩ | ⟨hkeep, hblock⟩ := extendBlock_cases b raw <;> rw [hblock] at hts ⊢
  · refine ⟨fun _ => ⟨by rw [rollover_succ], ?_⟩, fun h => absurd ⟨hpend, hlow⟩ h, fun h0 => ?_, fun _ _ => rfl⟩
    · rw [hts, BitVec.toNat_add]
      rfl
    · rw [h0] at hlow
      exact absurd hlow (Nat.not_lt_zero _)
  · exact ⟨fun h => absurd h hkeep, fun _ => ⟨rfl, hts⟩, fun _ => rfl,
      fun hhigh hpend => absurd ⟨hpend, by omega⟩ hkeep⟩

end Sys2Proof.Machine

/-! ## Every wrap is counted once (R68)

`WrapsAccounted` is what R68 says of any stretch of a run, from its first block to its last. It holds of one word and
chains over two stretches, so it holds of every sequence of words. -/

namespace Sys2Proof.Machine

/-- OVF_PEND as the number of wraps reported and not yet counted. -/
def pendingWraps (b : Block) : Nat := if b.ovfPend then 1 else 0

/-- From `b` to `b'`, over `wraps` executed WRAPs and `incs` increments of ROLLOVER: no wrap is counted twice, and none is
lost where WRAP_OVERRUN is clear at the end. -/
structure WrapsAccounted (b b' : Block) (wraps incs : Nat) : Prop where
  rollover : b'.rollover = b.rollover + BitVec.ofNat 16 incs
  atMostOnce : incs + pendingWraps b' ≤ wraps + pendingWraps b
  exactlyOnce : b'.wrapOverrun = false →
    b.wrapOverrun = false ∧ incs + pendingWraps b' = wraps + pendingWraps b

theorem WrapsAccounted.of_unchanged {b b' : Block} (hroll : b'.rollover = b.rollover) (hpend : b'.ovfPend = b.ovfPend)
    (hover : b'.wrapOverrun = b.wrapOverrun) : WrapsAccounted b b' 0 0 where
  rollover := by simp [hroll]
  atMostOnce := by simp [pendingWraps, hpend]
  exactlyOnce h := ⟨hover.symm.trans h, by simp [pendingWraps, hpend]⟩

/-- A WRAP leaves one wrap pending; one that was pending before is lost, and WRAP_OVERRUN says so (R65). -/
theorem WrapsAccounted.of_recordWrap (b : Block) : WrapsAccounted b (recordWrap b) 1 0 where
  rollover := by simp
  atMostOnce := by simp [pendingWraps]
  exactlyOnce h := by
    obtain ⟨hover, hpend⟩ : b.wrapOverrun = false ∧ b.ovfPend = false := by simpa using h
    simp [pendingWraps, hover, hpend]

/-- A consumed wrap is no longer pending and is one increment (R66, R67). -/
theorem WrapsAccounted.of_consumed {b b' : Block} (hpend : b.ovfPend = true) (hpend' : b'.ovfPend = false)
    (hroll : b'.rollover = b.rollover + 1) (hover : b'.wrapOverrun = b.wrapOverrun) : WrapsAccounted b b' 0 1 where
  rollover := hroll
  atMostOnce := by simp [pendingWraps, hpend, hpend']
  exactlyOnce h := ⟨hover.symm.trans h, by simp [pendingWraps, hpend, hpend']⟩

theorem WrapsAccounted.trans {b b' b'' : Block} {wraps wraps' incs incs' : Nat} (h : WrapsAccounted b b' wraps incs)
    (h' : WrapsAccounted b' b'' wraps' incs') : WrapsAccounted b b'' (wraps + wraps') (incs + incs') where
  rollover := by rw [h'.rollover, h.rollover, BitVec.ofNat_add, BitVec.add_assoc]
  atMostOnce := by
    have := h.atMostOnce
    have := h'.atMostOnce
    omega
  exactlyOnce hover'' := by
    obtain ⟨hover', hcount'⟩ := h'.exactlyOnce hover''
    obtain ⟨hover, hcount⟩ := h.exactlyOnce hover'
    exact ⟨hover, by omega⟩

/-- Outside RUNNING mode no operation writes ROLLOVER or the two wrap flags: INIT clears them where they are 0. -/
theorem BlockEffect.wrapFlags_of_notRunning {b b' : Block} {i : Instr} (he : BlockEffect b i b') (hinv : b.Inv)
    (hn : b.mode ≠ .running) :
    b'.rollover = b.rollover ∧ b'.ovfPend = b.ovfPend ∧ b'.wrapOverrun = b.wrapOverrun := by
  cases he with
  | wrap hr | edge _ hr | ovfchkPending hr | ovfchkClear hr | tick hr | settgt _ hr => exact absurd hr hn
  | initAccepted hu =>
    rw [startBlock_eq hinv hu]
    exact ⟨rfl, rfl, rfl⟩
  | read | wrcfg | initRejected | notRunning | locked => exact ⟨rfl, rfl, rfl⟩

theorem countWraps_singleton (s : State) (w : OpWord) :
    countWraps s [w] = if decode w = .ok .wrap ∧ s.block.mode = .running then 1 else 0 := rfl

theorem countIncrements_singleton (s : State) (w : OpWord) :
    countIncrements s [w] = if (afterWord s w).block.rollover = s.block.rollover then 0 else 1 := rfl

theorem countWraps_cons (s : State) (w : OpWord) (ws : List OpWord) :
    countWraps s (w :: ws) = countWraps s [w] + countWraps (afterWord s w) ws := rfl

theorem countIncrements_cons (s : State) (w : OpWord) (ws : List OpWord) :
    countIncrements s (w :: ws) = countIncrements s [w] + countIncrements (afterWord s w) ws := rfl

theorem afterWord_wrapsAccounted_of_notRunning {s : State} (hinv : s.block.Inv) (hn : s.block.mode ≠ .running)
    (w : OpWord) : WrapsAccounted s.block (afterWord s w).block (countWraps s [w]) (countIncrements s [w]) := by
  obtain ⟨hroll, hpend, hover⟩ : (afterWord s w).block.rollover = s.block.rollover ∧
      (afterWord s w).block.ovfPend = s.block.ovfPend ∧ (afterWord s w).block.wrapOverrun = s.block.wrapOverrun := by
    obtain ⟨i, -, he⟩ | ⟨why, -, hb⟩ := afterWord_effect s w
    · exact he.wrapFlags_of_notRunning hinv hn
    · rw [hb]
      exact ⟨rfl, rfl, rfl⟩
  rw [countWraps_singleton, countIncrements_singleton, if_neg fun h => hn h.2, if_pos hroll]
  exact .of_unchanged hroll hpend hover

theorem afterWord_wrapsAccounted_of_running {s : State} (hr : s.block.mode = .running) (w : OpWord) :
    WrapsAccounted s.block (afterWord s w).block (countWraps s [w]) (countIncrements s [w]) := by
  rw [countWraps_singleton, countIncrements_singleton]
  obtain ⟨hd, hb⟩ | ⟨hd, hover, ⟨hpend, hpend', hroll⟩ | ⟨hpend, hroll⟩⟩ := afterWord_wrapFlags hr w
  · rw [if_pos ⟨hd, hr⟩, hb, if_pos (recordWrap_rollover s.block)]
    exact .of_recordWrap s.block
  · rw [if_neg fun h => hd h.1, if_neg (by simp [hroll])]
    exact .of_consumed hpend hpend' hroll hover
  · rw [if_neg fun h => hd h.1, if_pos hroll]
    exact .of_unchanged hroll hpend hover

theorem afterWord_inv {s : State} (hinv : s.block.Inv) (w : OpWord) : (afterWord s w).block.Inv :=
  invariantIsKept { s with pins := .op w } (afterWord s w) hinv (step_offered s w)

theorem afterWords_wrapsAccounted {s : State} (hinv : s.block.Inv) (ws : List OpWord) :
    WrapsAccounted s.block (afterWords s ws).block (countWraps s ws) (countIncrements s ws) := by
  induction ws generalizing s with
  | nil => exact .of_unchanged rfl rfl rfl
  | cons w ws ih =>
    have hword : WrapsAccounted s.block (afterWord s w).block (countWraps s [w]) (countIncrements s [w]) := by
      by_cases hr : s.block.mode = .running
      · exact afterWord_wrapsAccounted_of_running hr w
      · exact afterWord_wrapsAccounted_of_notRunning hinv hr w
    rw [countWraps_cons, countIncrements_cons]
    exact hword.trans (ih (afterWord_inv hinv w))

/-- Settles O22: at reset nothing is counted and nothing is pending, so ROLLOVER is the increments modulo 2^16. -/
theorem rolloverCountsEveryWrapOnce : Obligations.RolloverCountsEveryWrapOnce := by
  rintro s t ws hs rfl
  have hacc := afterWords_wrapsAccounted (hs ▸ inv_reset) ws
  generalize (afterWords s ws).block = b at hacc ⊢
  rw [hs] at hacc
  obtain ⟨hroll, hmost, hexactly⟩ := hacc
  refine ⟨fun hover => ?_, (Nat.le_add_right _ _).trans hmost⟩
  have hcount : countIncrements s ws + pendingWraps b = countWraps s ws := (hexactly hover).2
  have hrollNat : b.rollover.toNat = countIncrements s ws % 2 ^ 16 := by simp [hroll]
  refine ⟨?_, hcount⟩
  rw [hrollNat, Nat.mod_add_mod]
  exact congrArg (· % 2 ^ 16) hcount

end Sys2Proof.Machine

/-! ## EDGE (R75 to R77, R79, R80) -/

namespace Sys2Proof.Machine

theorem exec_edge_running {s : State} (raw : Raw) (hr : s.block.mode = .running) :
    exec (.edge raw) s = deliver (respondOk (edgeBlock s.block raw) (extendTs s.block raw)) s := by
  rw [exec_eq_deliver, answerOf, whenRunning_running _ _ hr]

/-- The two registers EXTEND writes, in the numbers of R67; `takes` is its branch (a). -/
theorem extendBlock_numbers {b : Block} {raw : Raw} {takes : Bool}
    (h : takes = (b.ovfPend && decide (raw.toNat < b.cfg.lowThreshold.toNat))) :
    (extendBlock b raw).rollover.toNat =
      (if takes then (b.rollover.toNat + 1) % 2 ^ 16 else b.rollover.toNat) ∧
    (extendBlock b raw).ovfPend = (b.ovfPend && !takes) := by
  obtain ⟨hpend, hlow, hb⟩ | ⟨hkeep, hb⟩ := extendBlock_cases b raw <;> rw [hb]
  · have ht : takes = true := by simp [h, hpend, hlow]
    simp [ht, BitVec.toNat_add]
  · have ht : takes = false := by simpa [h] using hkeep
    simp [ht]

theorem extendTs_eq_ofNat (b : Block) (raw : Raw) :
    extendTs b raw = BitVec.ofNat 32 ((extendBlock b raw).rollover.toNat * 65536 + raw.toNat) := by
  rw [← extendTs_toNat, BitVec.ofNat_toNat, BitVec.setWidth_eq]

/-- DURATION in the numbers of R76. -/
theorem duration_eq_ofNat (b : Block) (ts : Data) :
    duration b ts =
      if b.prevValid then BitVec.ofNat 32 ((ts.toNat + 2 ^ 32 - b.prevTs.toNat) % 2 ^ 32) else 0 := by
  have hprev := b.prevTs.isLt
  have hsub : ts - b.prevTs = BitVec.ofNat 32 ((ts.toNat + 2 ^ 32 - b.prevTs.toNat) % 2 ^ 32) := by
    apply BitVec.eq_of_toNat_eq
    rw [BitVec.toNat_sub, BitVec.toNat_ofNat]
    omega
  rw [duration_eq, hsub]

/-- RPM_UPDATE in the numbers of R77. -/
theorem rpmUpdate_eq_ofNat (b : Block) (d : Data) :
    rpmUpdate b d = if d = 0 then b.speed else BitVec.ofNat 32 (b.scale.toNat / d.toNat) := by
  rw [rpmUpdate]
  split
  case isTrue => rfl
  case isFalse h => rw [fdiv_of_pos _ _ fun h0 => h (BitVec.eq_of_toNat_eq h0)]

theorem decode_edge_ofNat (raw : Raw) : decode (BitVec.ofNat 40 (0x2000000000 + raw.toNat)) = .ok (.edge raw) := by
  have hraw := raw.isLt
  rw [decode_ok_iff, ← encode_edge_ofNat (by omega), BitVec.ofNat_toNat, BitVec.setWidth_eq]

/-- Settles O18: EDGE's block by its frame, with EXTEND, DURATION and RPM_UPDATE each in the rules' numbers. -/
theorem edgeExecutes : Obligations.EdgeExecutes := by
  refine ⟨?_, fun s raw hn => exec_of_notRunning rfl hn, decode_edge_ofNat, fun w hop hlow => ?_⟩
  · intro s raw roll1 ts d takes hr htakes hroll hts hd
    obtain ⟨hrollover, hpend⟩ := extendBlock_numbers htakes
    rw [← hroll] at hrollover
    have hts' : extendTs s.block raw = ts := by rw [extendTs_eq_ofNat, hrollover, hts]
    have hd' : duration s.block ts = d := by rw [duration_eq_ofNat, hd]
    have hroll' : (extendBlock s.block raw).rollover = BitVec.ofNat 16 roll1 := by
      rw [← hrollover, BitVec.ofNat_toNat, BitVec.setWidth_eq]
    rw [exec_edge_running raw hr, edgeBlock_frame, hts', hd', hroll', hpend, rpmUpdate_eq_ofNat]
    rfl
  · refine (illegalWordsAreThose w).1.2 ?_
    omega

/-- After an EDGE its raw value finds no wrap to consume: it was consumed, or the value is not below LOW_THRESHOLD. -/
theorem extendBlock_edgeBlock (b : Block) (raw : Raw) : extendBlock (edgeBlock b raw) raw = edgeBlock b raw := by
  have hkept : ¬ ((edgeBlock b raw).ovfPend = true ∧ raw.toNat < (edgeBlock b raw).cfg.lowThreshold.toNat) := by
    rw [edgeBlock_ovfPend, edgeBlock_cfg]
    obtain ⟨-, -, hb⟩ | ⟨hkeep, hb⟩ := extendBlock_cases b raw <;> rw [hb]
    · simp
    · exact hkeep
  obtain ⟨hpend, hlow, -⟩ | ⟨-, h⟩ := extendBlock_cases (edgeBlock b raw) raw
  · exact absurd ⟨hpend, hlow⟩ hkept
  · exact h

theorem extendTs_edgeBlock (b : Block) (raw : Raw) : extendTs (edgeBlock b raw) raw = extendTs b raw := by
  rw [extendTs_eq_ofNat, extendBlock_edgeBlock, edgeBlock_rollover, ← extendTs_eq_ofNat]

/-- The second of two equal EDGE has duration 0 (R80). -/
theorem duration_edgeBlock (b : Block) (raw : Raw) : duration (edgeBlock b raw) (extendTs b raw) = 0 := by
  simp [duration_eq]

theorem edgeBlock_idem (b : Block) (raw : Raw) : edgeBlock (edgeBlock b raw) raw = edgeBlock b raw := by
  have hspeed : rpmUpdate (edgeBlock b raw) 0 = (edgeBlock b raw).speed := if_pos rfl
  rw [edgeBlock_frame (edgeBlock b raw), extendBlock_edgeBlock, extendTs_edgeBlock, duration_edgeBlock, hspeed]
  rfl

/-- Settles O19: `edgeBlock_idem`, with the answer from `extendTs_edgeBlock`. -/
theorem repeatedEdgeHoldsSpeed : Obligations.RepeatedEdgeHoldsSpeed := by
  intro s raw hr
  have hr' : (edgeBlock s.block raw).mode = .running := ((BlockEffect.edge raw hr).running_frame hr).1
  refine ⟨_, exec_edge_running raw hr, ?_⟩
  rw [exec_edge_running raw hr', respondOk_block, edgeBlock_idem, extendTs_edgeBlock]
  rfl

/-- R79 (a): an EDGE with a duration leaves SPEED the quotient. -/
theorem exec_edge_speed {s t : State} {raw : Raw} (hr : s.block.mode = .running)
    (hd : duration s.block (extendTs s.block raw) ≠ 0) (h : exec (.edge raw) s = .next t) :
    t.block.speed.toNat = s.block.scale.toNat / (duration s.block (extendTs s.block raw)).toNat := by
  rw [exec_edge_running raw hr] at h
  cases Host.Outcome.next.inj h
  rw [respondOk_block, edgeBlock_speed, rpmUpdate_toNat, if_neg hd]

/-- Settles O20: both speeds are quotients of one SCALE, the second by the larger duration. -/
theorem speedIsNonIncreasingInDuration : Obligations.SpeedIsNonIncreasingInDuration := by
  intro s₁ s₂ t₁ t₂ raw₁ raw₂ hr₁ hr₂ hscale hd₁ hlt h₁ h₂
  have hpos₁ : 0 < (duration s₁.block (extendTs s₁.block raw₁)).toNat :=
    Nat.pos_of_ne_zero fun h0 => hd₁ (BitVec.eq_of_toNat_eq h0)
  have hd₂ : duration s₂.block (extendTs s₂.block raw₂) ≠ 0 := by
    intro h0
    rw [h0] at hlt
    exact Nat.not_lt_zero _ hlt
  have hspeed₁ := exec_edge_speed hr₁ hd₁ h₁
  have hspeed₂ := exec_edge_speed hr₂ hd₂ h₂
  refine ⟨hspeed₁, hspeed₁.trans_le (Nat.div_le_self _ _), fun hbig => ?_, ?_⟩
  · exact BitVec.eq_of_toNat_eq (hspeed₂.trans (Nat.div_eq_of_lt hbig))
  · rw [hspeed₁, hspeed₂, hscale]
    exact Nat.div_le_div_left hlt.le hpos₁

end Sys2Proof.Machine

/-! ## INIT (R78, R109, R110) -/

namespace Sys2Proof.Machine

theorem exec_init_unconfigured {s : State} (hu : s.block.mode = .unconfigured) :
    exec .init s = deliver (initAnswer s.block) s := by
  rw [exec_eq_deliver, answerOf, whenUnconfigured_unconfigured _ _ hu]

theorem zeroPprGear_iff (c : Cfg) : zeroPprGear c = true ↔ divisor c = 0 := beq_iff_eq

theorem zeroGainDen_iff (c : Cfg) : zeroGainDen c = true ↔ c.gainDen = 0 := beq_iff_eq

/-- CHECK_CFG's causes lie on separate bits, so or-ing them adds their numbers (R109). -/
theorem checkCfg_eq_sum (c : Cfg) :
    checkCfg c = BitVec.ofNat 3 ((if zeroPprGear c then 1 else 0) + (if zeroGainDen c then 2 else 0) +
      (if scaleRange c then 4 else 0)) := by
  unfold checkCfg
  cases zeroPprGear c <;> cases zeroGainDen c <;> cases scaleRange c <;> rfl

/-- The causes as R109 writes them. -/
theorem checkCfg_eq_causes (c : Cfg) :
    checkCfg c = BitVec.ofNat 3 ((if divisor c = 0 then 1 else 0) + (if c.gainDen = 0 then 2 else 0) +
      (if divisor c ≠ 0 ∧ 0xFFFFFFFF < c.tickFreq.toNat * 60 / divisor c then 4 else 0)) := by
  rw [checkCfg_eq_sum, if_congr (zeroPprGear_iff c) rfl rfl, if_congr (zeroGainDen_iff c) rfl rfl,
    if_congr (scaleRange_iff c) rfl rfl]

/-- Settles O38: CHECK_CFG's causes as numbers, and the two outcomes of INIT. -/
theorem initDecides : Obligations.InitDecides := by
  rintro s pg sc causes hu rfl rfl hcauses
  have hcheck : checkCfg s.block.cfg = causes := (checkCfg_eq_causes s.block.cfg).trans hcauses.symm
  rw [exec_init_unconfigured hu]
  obtain ⟨hc, ha⟩ | ⟨hc, ha⟩ := initAnswer_cases s.block <;> rw [ha, ← hcheck]
  · have hscale := deriveScale_eq s.block.cfg (checkCfg_accepts _ hc).1
    refine ⟨fun _ => ?_, absurd hc⟩
    rw [startBlock, hscale]
    rfl
  · refine ⟨fun h0 => absurd h0 hc, fun _ => ?_⟩
    rw [BitVec.ofNat_toNat]
    rfl

end Sys2Proof.Machine

/-! ## The accumulator (R89) -/

namespace Sys2Proof.Machine

/-- Settles O28: both steps of the accumulator are those of bit vectors. -/
theorem integralUndoIsExact : Obligations.IntegralUndoIsExact := by
  intro integ e
  refine ⟨?_, ?_⟩
  · rw [swrap, BitVec.toInt_ofInt]
    exact Int.bmod_emod
  · rw [swrap64_sub, swrap64_add, BitVec.add_sub_cancel]

end Sys2Proof.Machine

/-! ## The ranges of the PID datapath (R90) -/

namespace Sys2Proof.Machine

/-- A gain is a u32, so a term of `num` is at most 2^32 - 1 times its other factor. -/
theorem abs_gain_mul_le (k : Data) {z bound : Int} (h : |z| ≤ bound) : |k.toNat * z| ≤ (2 ^ 32 - 1) * bound := by
  have hk : (k.toNat : Int) ≤ 2 ^ 32 - 1 := by omega
  rw [abs_mul, Nat.abs_cast]
  exact mul_le_mul hk h (abs_nonneg z) (by decide)

theorem abs_error_le (t m : Data) : |(t.toNat : Int) - m.toNat| ≤ 2 ^ 32 - 1 := by
  rw [abs_le]
  omega

theorem abs_acc_toInt_le (a : Acc) : |a.toInt| ≤ 2 ^ 63 := by
  have hlo := a.le_toInt
  have hhi := a.toInt_lt
  rw [abs_le]
  omega

/-- Settles O29: each term of `num` from the range of its factor, and `num` from the three terms. -/
theorem pidDatapathRanges : Obligations.PidDatapathRanges := by
  rintro c t m i1 pe e rfl hlo hhi
  have he := abs_error_le t m
  have hde : |(t.toNat : Int) - m.toNat - pe.toInt| ≤ 2 ^ 33 - 2 := by
    rw [abs_le] at he ⊢
    omega
  have hkp := abs_gain_mul_le c.kp he
  have hki := abs_gain_mul_le c.ki (abs_acc_toInt_le i1)
  have hkd := abs_gain_mul_le c.kd hde
  have hnum := abs_add_three (c.kp.toNat * ((t.toNat : Int) - m.toNat)) (c.ki.toNat * i1.toInt)
    (c.kd.toNat * ((t.toNat : Int) - m.toNat - pe.toInt))
  have hgain := c.gainDen.isLt
  refine ⟨he, hde, by omega, hki, by omega, ?_, by omega, fun hg integ => pidStep_duty_le c t m integ pe hg⟩
  rw [pidNum]
  omega

end Sys2Proof.Machine

/-! ## SETTGT (R86) -/

namespace Sys2Proof.Machine

theorem exec_settgt_running {s : State} (v : Data) (hr : s.block.mode = .running) :
    exec (.settgt v) s =
      deliver (respondOk { s.block with target := min32 v s.block.cfg.maxSpeed } (min32 v s.block.cfg.maxSpeed)) s := by
  rw [exec_eq_deliver, answerOf, whenRunning_running _ _ hr]

theorem decode_settgt_ofNat (v : Data) : decode (BitVec.ofNat 40 (0x5000000000 + v.toNat)) = .ok (.settgt v) := by
  have hv := v.isLt
  rw [decode_ok_iff, ← encode_settgt_ofNat (by omega), BitVec.ofNat_toNat, BitVec.setWidth_eq]

/-- Settles O30: the gate, the clamp to MAX_SPEED, and the words of the opcode. -/
theorem settgtExecutes : Obligations.SettgtExecutes := by
  refine ⟨?_, fun s v hn => exec_of_notRunning rfl hn, decode_settgt_ofNat, fun w hop hidx => ?_⟩
  · rintro s v bounded hr rfl
    exact exec_settgt_running v hr
  · refine (illegalWordsAreThose w).1.2 ?_
    omega

end Sys2Proof.Machine

/-! ## TICK (R85, R87, R88, R91, R100) -/

namespace Sys2Proof.Machine

/-- TICK on the whole state, from what PID_STEP returns (R85). -/
theorem exec_tick_running {s : State} {p : PidResult} (hr : s.block.mode = .running)
    (hp : pidStep s.block.cfg s.block.target s.block.speed s.block.integ s.block.prevErr = p) :
    exec .tick s = .next { s with
      block := tickBlock s.block p
      resp := some ⟨.ok, mapDuty s.block.cfg p.duty⟩
      cmpStrobe := true } := by
  rw [exec_eq_deliver, answerOf, whenRunning_running _ _ hr, ← hp]
  rfl

theorem mapDuty_zero (c : Cfg) : mapDuty c 0 = 0 :=
  BitVec.eq_of_toNat_eq ((mapDuty_toNat c 0 (by decide)).trans (by simp))

theorem mapDuty_hundred (c : Cfg) : mapDuty c 100 = c.actPeriod :=
  BitVec.eq_of_toNat_eq ((mapDuty_toNat c 100 (by decide)).trans (Nat.mul_div_cancel_left _ (by decide)))

/-- MAP_DUTY of a percentage given as an integer (R100). -/
theorem mapDuty_ofInt (c : Cfg) {duty : Int} (hlo : 0 ≤ duty) (hhi : duty ≤ 100) :
    mapDuty c (BitVec.ofInt 7 duty) = BitVec.ofInt 32 (duty * c.actPeriod.toNat / 100) := by
  lift duty to Nat using hlo
  have hduty : (BitVec.ofNat 7 duty).toNat = duty := Nat.mod_eq_of_lt (by omega)
  have hmap := mapDuty_toNat c (BitVec.ofNat 7 duty) (by omega)
  rw [hduty] at hmap
  have hquot : (duty * c.actPeriod.toNat / 100 : Int) = ((duty * c.actPeriod.toNat / 100 : Nat) : Int) := by
    push_cast
    rfl
  rw [hquot, ← hmap, BitVec.ofInt_natCast, BitVec.ofInt_natCast, BitVec.ofNat_toNat, BitVec.setWidth_eq]

/-- The duty of R87 as an integer: rawOutput, which is num / GAIN_DEN, floored and held between the two bounds. -/
def clampedDuty (num : Int) (gainDen : Data) : Int :=
  if num > 100 * gainDen.toNat then 100 else if num < 0 then 0 else num / gainDen.toNat

theorem clampedDuty_range (num : Int) {gainDen : Data} (hg : gainDen ≠ 0) :
    0 ≤ clampedDuty num gainDen ∧ clampedDuty num gainDen ≤ 100 := by
  have hpos : 0 < (gainDen.toNat : Int) := Int.natCast_pos.2 (Nat.pos_of_ne_zero (BitVec.toNat_ne.1 hg))
  unfold clampedDuty
  split_ifs with hhigh hlow
  · decide
  · decide
  · exact ⟨Int.ediv_nonneg (by omega) hpos.le, Int.ediv_le_of_le_mul hpos (by omega)⟩

/-- PID_STEP in the numbers of R87. -/
theorem pidStep_eq {c : Cfg} {t m : Data} {integ pe i1 : Acc} {e num : Int} (hg : c.gainDen ≠ 0)
    (he : e = (t.toNat : Int) - m.toNat) (hi : i1 = integ + BitVec.ofInt 64 e) (hn : num = pidNum c e i1 pe) :
    pidStep c t m integ pe =
      ⟨e, if num > 100 * c.gainDen.toNat ∨ num < 0 then integ else i1,
        BitVec.ofInt 7 (clampedDuty num c.gainDen)⟩ := by
  obtain ⟨hhigh, h⟩ | ⟨hhigh, hlow, h⟩ | ⟨hhigh, hlow, h⟩ := pidStep_cases c t m integ pe e num i1 he hi hn
  · rw [h, if_pos (.inl hhigh), clampedDuty, if_pos hhigh]
    rfl
  · rw [h, if_pos (.inr hlow), clampedDuty, if_neg hhigh.not_gt, if_pos hlow]
    rfl
  · rw [h, if_neg (by omega), clampedDuty, if_neg hhigh.not_gt, if_neg hlow.not_gt,
      fdiv_of_pos _ _ (BitVec.toNat_ne.1 hg)]
    lift num to Nat using hlow
    rfl

/-- No operation but TICK writes a register of the regulator's output or of its errors (R10). -/
theorem eq_tick_of_pid_register_changed {s t : State} {i : Instr} (hinv : s.block.Inv) (h : exec i s = .next t)
    (hne : t.block.err ≠ s.block.err ∨ t.block.prevErr ≠ s.block.prevErr ∨ t.block.integ ≠ s.block.integ ∨
      t.block.duty ≠ s.block.duty ∨ t.block.cmp ≠ s.block.cmp) : i = .tick := by
  obtain ⟨-, -, -, -, -, -, -, -, -, -, herr, hprevErr, hinteg, hduty, hcmp, -⟩ :=
    registersHaveTheirWriters s t i hinv h
  exact hne.elim herr (Or.elim · hprevErr (Or.elim · hinteg (Or.elim · hduty hcmp)))

/-- Settles O26: PID_STEP and MAP_DUTY in the rules' numbers, the gate, the writers, and the one word. -/
theorem tickExecutes : Obligations.TickExecutes := by
  refine ⟨?_, fun _ hn => exec_of_notRunning rfl hn, fun _ _ _ => eq_tick_of_pid_register_changed, rfl,
    fun _ => decode_error_of_operandless (by decide) (by decide) (by decide) rfl⟩
  intro s e num duty i1 hr hg he hi hn hduty
  obtain ⟨hlo, hhi⟩ := clampedDuty_range num hg
  rw [exec_tick_running hr (pidStep_eq hg he hi hn), mapDuty_ofInt _ hlo hhi, tickBlock, mapDuty_ofInt _ hlo hhi, hduty]
  rfl

/-- A TICK whose control step undoes the accumulator, at either bound. -/
theorem exec_tick_undone {s : State} {e : Int} {duty : Duty} (hr : s.block.mode = .running)
    (he : e = (s.block.target.toNat : Int) - s.block.speed.toNat)
    (hp : pidStep s.block.cfg s.block.target s.block.speed s.block.integ s.block.prevErr =
      ⟨e, s.block.integ, duty⟩) :
    ∃ t, exec .tick s = .next t ∧ t.block.duty = duty ∧ t.block.integ = s.block.integ ∧
      t.block.cmp = mapDuty s.block.cfg duty ∧ t.block.err = t.block.prevErr ∧ t.block.err.toInt = e :=
  ⟨_, exec_tick_running hr hp, rfl, rfl, rfl, rfl, sext64_toInt e (by omega) (by omega)⟩

/-- Settles O27: the two saturated outcomes of PID_STEP, with MAP_DUTY at its two bounds. -/
theorem saturatedTickCancelsWindup : Obligations.SaturatedTickCancelsWindup := by
  intro s num hr hn
  rw [swrap64_add] at hn
  have hcases := pidStep_cases s.block.cfg s.block.target s.block.speed s.block.integ s.block.prevErr _ num _ rfl rfl hn
  refine ⟨fun hhigh => ?_, fun hlow => ?_⟩
  · rw [← mapDuty_hundred]
    obtain ⟨-, hp⟩ | ⟨hle, -⟩ | ⟨hle, -⟩ := hcases
    · exact exec_tick_undone hr rfl hp
    · exact absurd hhigh hle.not_gt
    · exact absurd hhigh hle.not_gt
  · rw [← mapDuty_zero s.block.cfg]
    obtain ⟨hgt, -⟩ | ⟨-, -, hp⟩ | ⟨-, hnn, -⟩ := hcases
    · omega
    · exact exec_tick_undone hr rfl hp
    · exact absurd hlow hnn.not_gt

end Sys2Proof.Machine

/-! ## The Actuator Mapper (R100, R101, R103) -/

namespace Sys2Proof.Machine

theorem mapDuty_mono (c : Cfg) {d₁ d₂ : Duty} (hle : d₁.toNat ≤ d₂.toNat) (h : d₂.toNat ≤ 100) :
    (mapDuty c d₁).toNat ≤ (mapDuty c d₂).toNat := by
  rw [mapDuty_toNat c d₁ (hle.trans h), mapDuty_toNat c d₂ h]
  exact Nat.div_le_div_right (Nat.mul_le_mul_right _ hle)

/-- MAP_DUTY reads no other register than ACT_PERIOD. -/
theorem mapDuty_congr {c c' : Cfg} (h : c.actPeriod = c'.actPeriod) (d : Duty) : mapDuty c d = mapDuty c' d := by
  rw [mapDuty, mapDuty, h]

/-- A compare value is never above the one of duty 100, which is the period (R101). -/
theorem mapDuty_le_actPeriod (c : Cfg) {d : Duty} (h : d.toNat ≤ 100) :
    (mapDuty c d).toNat ≤ c.actPeriod.toNat := by
  have hmax := mapDuty_mono c (d₂ := 100) h (by decide)
  rwa [mapDuty_hundred] at hmax

/-- Settles O31: the two bounds, the monotone quotient, and the one register MAP_DUTY reads. -/
theorem mapperIsIdempotentAndMonotone : Obligations.MapperIsIdempotentAndMonotone :=
  ⟨fun c => ⟨mapDuty_zero c, mapDuty_hundred c⟩, fun c _ _ => mapDuty_mono c, fun _ _ d h => mapDuty_congr h d⟩

/-- Settles O32: TICK stores a duty of at most 100, and its CMP is the mapping of that duty. -/
theorem compareNeverExceedsPeriod : Obligations.CompareNeverExceedsPeriod := by
  refine ⟨fun c d hd => ⟨mapDuty_toNat c d hd, mapDuty_le_actPeriod c hd⟩, fun s hr hg => ?_⟩
  have hduty := pidStep_duty_le s.block.cfg s.block.target s.block.speed s.block.integ s.block.prevErr hg
  exact ⟨_, exec_tick_running hr rfl, hduty, mapDuty_le_actPeriod s.block.cfg hduty⟩

end Sys2Proof.Machine

/-! ## The actuator ports cmp_out and cmp_strobe (R102) -/

namespace Sys2Proof.Machine

/-- The operation is a TICK that the mode gate lets through (R85). -/
def ExecutesTick (i : Instr) (b : Block) : Prop := i = .tick ∧ b.mode = .running

theorem whenRunning_strobe {b : Block} {a : Answer} (ha : b.mode = .running → a.strobe = false) :
    (whenRunning b a).strobe = false := by
  by_cases hr : b.mode = .running
  · rw [whenRunning_running b a hr, ha hr]
  · rw [whenRunning_other b a hr, raiseError_strobe]

theorem whenUnconfigured_strobe {b : Block} {a : Answer} (ha : a.strobe = false) :
    (whenUnconfigured b a).strobe = false := by
  by_cases hu : b.mode = .unconfigured
  · rw [whenUnconfigured_unconfigured b a hu, ha]
  · rw [whenUnconfigured_other b a hu, raiseError_strobe]

theorem initAnswer_strobe (b : Block) : (initAnswer b).strobe = false := by
  obtain ⟨-, h⟩ | ⟨-, h⟩ := initAnswer_cases b <;> rw [h]
  · exact respondOk_strobe _ _
  · exact raiseError_strobe _ _ _

/-- No answer pulses the strobe but that of an executed TICK. -/
theorem answerOf_strobe {i : Instr} {b : Block} (hn : ¬ ExecutesTick i b) : (answerOf i b).strobe = false := by
  cases i with
  | tick => exact whenRunning_strobe fun hr => absurd ⟨rfl, hr⟩ hn
  | wrap | edge | settgt => exact whenRunning_strobe fun _ => rfl
  | ovfchk => exact whenRunning_strobe fun _ => by split <;> rfl
  | getspd | getduty | getstat => rfl
  | wrcfgKp | wrcfgKi | wrcfgKd | wrcfgGainDen | wrcfgMaxSpeed | wrcfgPpr | wrcfgGearRatio | wrcfgTickFreq
  | wrcfgActPeriod | wrcfgLowThreshold => exact whenUnconfigured_strobe rfl
  | init => exact whenUnconfigured_strobe (initAnswer_strobe b)

/-- No operation changes CMP but an executed TICK: INIT's clear finds it 0. -/
theorem BlockEffect.cmp_eq {b b' : Block} {i : Instr} (he : BlockEffect b i b') (hinv : b.Inv)
    (hn : ¬ ExecutesTick i b) : b'.cmp = b.cmp := by
  cases he with
  | edge raw => rw [edgeBlock_frame]
  | tick hr => exact absurd ⟨rfl, hr⟩ hn
  | initAccepted hu => rw [startBlock_eq hinv hu]
  | wrap | ovfchkPending | ovfchkClear | settgt | read | wrcfg | initRejected | notRunning | locked => rfl

/-- An executed TICK pulses the strobe and is answered with the new CMP. -/
theorem afterWord_executesTick {s : State} {w : OpWord} (hd : decode w = .ok .tick) (hr : s.block.mode = .running) :
    (afterWord s w).cmpStrobe = true ∧ (afterWord s w).resp = some ⟨.ok, (afterWord s w).cmpOut⟩ := by
  rw [afterWord_of_ok s hd, answerOf, whenRunning_running _ _ hr]
  exact ⟨rfl, rfl⟩

/-- Every other word, legal or not, pulses no strobe and keeps cmp_out. -/
theorem afterWord_not_executesTick {s : State} {w : OpWord} (hinv : s.block.Inv)
    (hn : ¬ (decode w = .ok .tick ∧ s.block.mode = .running)) :
    (afterWord s w).cmpStrobe = false ∧ (afterWord s w).cmpOut = s.cmpOut := by
  obtain ⟨i, hd⟩ | ⟨why, hd⟩ := decode_total w
  · have hi : ¬ ExecutesTick i s.block := fun ⟨htick, hr⟩ => hn ⟨hd.trans (congrArg Except.ok htick), hr⟩
    rw [afterWord_of_ok s hd]
    exact ⟨answerOf_strobe hi, (answerOf_effect i s.block).cmp_eq hinv hi⟩
  · rw [afterWord_of_error s hd]
    exact ⟨rfl, rfl⟩

theorem step_rst {s : State} (hp : s.pins = .rst) : step s = .next State.reset := by
  simp [step, takeInput, hp, applyReset]

/-- Settles O33: a word that is an executed TICK and one that is not, and the reset step. -/
theorem onlyTickDrivesTheActuator : Obligations.OnlyTickDrivesTheActuator := by
  refine ⟨fun _ => rfl, fun s t w hinv hp hstep => ?_, fun s hp => ⟨State.reset, step_rst hp, rfl, rfl⟩⟩
  rw [step_op_eq hp hstep]
  by_cases hexec : decode w = .ok .tick ∧ s.block.mode = .running
  · obtain ⟨hstrobe, hresp⟩ := afterWord_executesTick hexec.1 hexec.2
    exact ⟨iff_of_true hstrobe hexec, fun _ => hresp, fun _ => hexec⟩
  · obtain ⟨hstrobe, hcmp⟩ := afterWord_not_executesTick hinv hexec
    exact ⟨iff_of_false (by simp [hstrobe]) hexec, fun h => absurd (hstrobe.symm.trans h) (by decide),
      fun h => absurd hcmp h⟩

end Sys2Proof.Machine

/-! ## What RUNNING mode guarantees (R111) -/

namespace Sys2Proof.Machine

theorem afterWords_inv {s : State} (hinv : s.block.Inv) (ws : List OpWord) : (afterWords s ws).block.Inv :=
  afterWords_keeps (fun t => t.block.Inv) (fun _ w h => afterWord_inv h w) s ws hinv

theorem afterWords_inv_of_reset {s : State} (hs : s.block = Block.reset) (ws : List OpWord) :
    (afterWords s ws).block.Inv :=
  afterWords_inv (hs ▸ inv_reset) ws

/-- The derived constant fits the register SCALE, because it is what the register holds. -/
theorem Block.Inv.derivedScale_le {b : Block} (h : b.Inv) (hr : b.mode = .running) :
    b.cfg.tickFreq.toNat * 60 / (b.cfg.ppr.toNat * b.cfg.gearRatio.toNat) ≤ 2 ^ 32 - 1 := by
  rw [← h.scaleDerived hr]
  exact Nat.le_sub_one_of_lt b.scale.isLt

theorem Block.Inv.one_le_gainDen {b : Block} (h : b.Inv) (hr : b.mode = .running) : 1 ≤ b.cfg.gainDen.toNat :=
  Nat.one_le_iff_ne_zero.2 fun h0 => h.gainDenNotZero hr (BitVec.eq_of_toNat_eq h0)

/-- Settles O39: the invariant holds from reset on, and a running block keeps its configuration. -/
theorem runningModeGuarantee : Obligations.RunningModeGuarantee := by
  rintro s t ws hs rfl hr
  have hinv := afterWords_inv_of_reset hs ws
  exact ⟨hinv.one_le_gainDen hr, Nat.one_le_iff_ne_zero.2 (hinv.divisorNotZero hr), hinv.scaleDerived hr,
    hinv.derivedScale_le hr, hinv.cfgErrClear (by simp [hr]),
    fun ws' => (configurationIsConstantWhileRunning _ ws' hr).2.1⟩

end Sys2Proof.Machine

/-! ## GETSPD and GETDUTY (R105, R106) -/

namespace Sys2Proof.Machine

/-- `zext_32` keeps the number, so it is the word of that number. -/
theorem zext32_eq_ofNat {m : Nat} (v : BitVec m) : zext32 v = BitVec.ofNat 32 v.toNat :=
  (BitVec.ofNat_toNat 32 v).symm

/-- GETSPD in every mode: only the response and the strobe differ (R105). -/
theorem exec_getspd (s : State) :
    exec .getspd s = .next { s with resp := some ⟨.ok, s.block.speed⟩, cmpStrobe := false } := by
  rw [exec_eq_deliver]
  rfl

/-- GETDUTY in every mode: only the response and the strobe differ (R106). -/
theorem exec_getduty (s : State) :
    exec .getduty s =
      .next { s with resp := some ⟨.ok, BitVec.ofNat 32 s.block.duty.toNat⟩, cmpStrobe := false } := by
  rw [exec_eq_deliver, ← zext32_eq_ofNat]
  rfl

/-- Settles O34: both answers, and the registers that are at reset outside RUNNING mode. -/
theorem readAccessorsExecute : Obligations.ReadAccessorsExecute := by
  refine ⟨fun s => ⟨exec_getspd s, exec_getduty s⟩, rfl, rfl, fun b hinv hn => ?_⟩
  rw [hinv.atReset hn]
  exact ⟨rfl, rfl⟩

end Sys2Proof.Machine

/-! ## WRCFG, and the lock on the configuration (R108, R110, R123) -/

namespace Sys2Proof.Machine

/-- WRCFG of any register in UNCONFIGURED mode (R108). -/
theorem exec_wrcfg_unconfigured {s : State} (r : CfgReg) (v : Data) (hu : s.block.mode = .unconfigured) :
    exec (wrcfg r v) s = .next { s with
      block := { s.block with cfg := s.block.cfg.set r v }, resp := some ⟨.ok, 0⟩, cmpStrobe := false } := by
  rw [exec_eq_deliver, answerOf_wrcfg, whenUnconfigured_unconfigured _ _ hu]
  rfl

/-- Settles O36: `exec_wrcfg_unconfigured` at each of the ten registers. -/
theorem wrcfgExecutes : Obligations.WrcfgExecutes := by
  rintro s v written hu rfl
  have hwrite := fun r => exec_wrcfg_unconfigured r v hu
  exact ⟨hwrite .kp, hwrite .ki, hwrite .kd, hwrite .gainDen, hwrite .maxSpeed, hwrite .ppr, hwrite .gearRatio,
    hwrite .tickFreq, hwrite .actPeriod, hwrite .lowThreshold⟩

/-- The gate of R123 for the configuration, as the answer. -/
theorem answerOf_of_locked {i : Instr} {b : Block} (hi : isWrcfg i = true ∨ i = .init) (hn : b.mode ≠ .unconfigured) :
    answerOf i b = raiseError .cfgLocked 0 b := by
  cases i with
  | wrcfgKp | wrcfgKi | wrcfgKd | wrcfgGainDen | wrcfgMaxSpeed | wrcfgPpr | wrcfgGearRatio | wrcfgTickFreq
  | wrcfgActPeriod | wrcfgLowThreshold | init => exact whenUnconfigured_other _ _ hn
  | _ => exact absurd hi (by simp [isWrcfg])

/-- Settles O37: the locked answer, delivered. -/
theorem configurationIsLocked : Obligations.ConfigurationIsLocked := by
  intro s i hi hn
  rw [exec_eq_deliver, answerOf_of_locked hi hn]
  rfl

end Sys2Proof.Machine

/-! ## The code every operation is answered with (R123) -/

namespace Sys2Proof.Machine

/-- R123's four classes hold every operation. -/
theorem instr_class (i : Instr) : needsRunning i = true ∨ isRead i = true ∨ isWrcfg i = true ∨ i = .init := by
  cases i with
  | wrap | edge | ovfchk | tick | settgt => exact .inl rfl
  | getspd | getduty | getstat => exact .inr (.inl rfl)
  | wrcfgKp | wrcfgKi | wrcfgKd | wrcfgGainDen | wrcfgMaxSpeed | wrcfgPpr | wrcfgGearRatio | wrcfgTickFreq
  | wrcfgActPeriod | wrcfgLowThreshold => exact .inr (.inr (.inl rfl))
  | init => exact .inr (.inr (.inr rfl))

theorem answerOf_code_of_isRead {i : Instr} (hi : isRead i = true) (b : Block) : (answerOf i b).resp.code = .ok := by
  cases i with
  | getspd | getduty | getstat => rfl
  | _ => exact Bool.noConfusion hi

theorem answerOf_code_of_running {i : Instr} {b : Block} (hi : needsRunning i = true) (hr : b.mode = .running) :
    (answerOf i b).resp.code = .ok := by
  cases i with
  | wrap | edge | tick | settgt => rw [answerOf, whenRunning_running _ _ hr]; rfl
  | ovfchk => rw [answerOf, whenRunning_running _ _ hr]; split <;> rfl
  | _ => exact Bool.noConfusion hi

/-- The gate of R123 for the five operations that need RUNNING mode, as the answer. -/
theorem answerOf_of_notRunning {i : Instr} {b : Block} (hi : needsRunning i = true) (hn : b.mode ≠ .running) :
    answerOf i b = raiseError .notRunning 0 b := by
  cases i with
  | wrap | edge | ovfchk | tick | settgt => exact whenRunning_other _ _ hn
  | _ => exact Bool.noConfusion hi

theorem answerOf_code_of_isWrcfg {i : Instr} {b : Block} (hi : isWrcfg i = true) (hu : b.mode = .unconfigured) :
    (answerOf i b).resp.code = .ok := by
  cases i with
  | wrcfgKp | wrcfgKi | wrcfgKd | wrcfgGainDen | wrcfgMaxSpeed | wrcfgPpr | wrcfgGearRatio | wrcfgTickFreq
  | wrcfgActPeriod | wrcfgLowThreshold => rw [answerOf, whenUnconfigured_unconfigured _ _ hu]; rfl
  | _ => exact Bool.noConfusion hi

/-- INIT in UNCONFIGURED mode: accepted, or rejected with CFGERR and MODE written (R110). -/
theorem answerOf_init_unconfigured {b : Block} (hu : b.mode = .unconfigured) :
    (answerOf .init b).resp.code = .ok ∨
    ∃ info causes, answerOf .init b = raiseError .cfgError info { b with cfgErr := causes, mode := .fault } := by
  rw [answerOf, whenUnconfigured_unconfigured _ _ hu]
  obtain ⟨-, h⟩ | ⟨-, h⟩ := initAnswer_cases b
  · exact .inl (by rw [h, respondOk_resp])
  · exact .inr ⟨_, _, h⟩

/-- Settles O42: the code of each class on either side of its mode gate. -/
theorem modeMatrix : Obligations.ModeMatrix := by
  intro i s
  refine ⟨_, (answerOf i s.block).resp, exec_eq_deliver i s, rfl, fun hi => ?_,
    fun hi => answerOf_code_of_isRead hi s.block, fun hi => ?_, ?_⟩
  · split_ifs with hr
    · exact answerOf_code_of_running hi hr
    · rw [answerOf_of_notRunning hi hr, raiseError_resp]
  · split_ifs with hu
    · exact answerOf_code_of_isWrcfg hi hu
    · rw [answerOf_of_locked (.inl hi) hu, raiseError_resp]
  · rintro rfl
    split_ifs with hu
    · obtain hok | ⟨info, causes, h⟩ := answerOf_init_unconfigured hu
      · exact .inl hok
      · exact .inr (by rw [h, raiseError_resp])
    · rw [answerOf_of_locked (.inr rfl) hu, raiseError_resp]

end Sys2Proof.Machine

/-! ## What an error leaves (R121) -/

namespace Sys2Proof.Machine

/-- An answer is OK, a refusal that leaves the block, or INIT's rejection. -/
theorem answerOf_cases (i : Instr) (b : Block) :
    (answerOf i b).resp.code = .ok ∨
    (∃ code, code ≠ .ok ∧ code ≠ .cfgError ∧ answerOf i b = raiseError code 0 b) ∨
    (∃ info causes, answerOf i b = raiseError .cfgError info { b with cfgErr := causes, mode := .fault }) := by
  have hlocked (hi : isWrcfg i = true ∨ i = .init) (hu : b.mode ≠ .unconfigured) :
      ∃ code, code ≠ .ok ∧ code ≠ .cfgError ∧ answerOf i b = raiseError code 0 b :=
    ⟨.cfgLocked, nofun, nofun, answerOf_of_locked hi hu⟩
  obtain hi | hi | hi | rfl := instr_class i
  · by_cases hr : b.mode = .running
    · exact .inl (answerOf_code_of_running hi hr)
    · exact .inr (.inl ⟨.notRunning, nofun, nofun, answerOf_of_notRunning hi hr⟩)
  · exact .inl (answerOf_code_of_isRead hi b)
  · by_cases hu : b.mode = .unconfigured
    · exact .inl (answerOf_code_of_isWrcfg hi hu)
    · exact .inr (.inl (hlocked (.inl hi) hu))
  · by_cases hu : b.mode = .unconfigured
    · exact (answerOf_init_unconfigured hu).imp_right .inr
    · exact .inr (.inl (hlocked (.inr rfl) hu))

/-- The same for a word, where an illegal one is refused. -/
theorem afterWord_cases (s : State) (w : OpWord) :
    (∃ r, (afterWord s w).resp = some r ∧ r.code = .ok) ∨
    (∃ code, code ≠ .ok ∧ code ≠ .cfgError ∧ afterWord s w = refusedWith code (transferred s)) ∨
    (∃ info causes, afterWord s w =
      { block := { s.block with cfgErr := causes, mode := .fault }, resp := some ⟨.cfgError, info⟩,
        cmpStrobe := false, pins := .idle }) := by
  obtain ⟨i, hd⟩ | ⟨why, hd⟩ := decode_total w
  · rw [afterWord_of_ok s hd]
    obtain hok | ⟨code, hne, hne', h⟩ | ⟨info, causes, h⟩ := answerOf_cases i s.block
    · exact .inl ⟨_, rfl, hok⟩
    · exact .inr (.inl ⟨code, hne, hne', by rw [h]; rfl⟩)
    · exact .inr (.inr ⟨info, causes, by rw [h]; rfl⟩)
  · exact .inr (.inl ⟨.illegalOp, nofun, nofun, afterWord_of_error s hd⟩)

/-- Settles O11, by the three cases of `afterWord_cases`. -/
theorem errorsChangeNothing : Obligations.ErrorsChangeNothing := by
  intro s t w r hp hstep hr
  rw [step_op_eq hp hstep] at hr ⊢
  obtain ⟨r', hr', hok⟩ | ⟨code, -, hne, h⟩ | ⟨info, causes, h⟩ := afterWord_cases s w
  · have hcode : r.code = .ok := Option.some.inj (hr.symm.trans hr') ▸ hok
    simp [hcode, State.opReady]
  · rw [h] at hr ⊢
    cases hr
    exact ⟨fun _ => ⟨rfl, rfl, rfl, rfl⟩, fun hcode => absurd hcode hne, rfl⟩
  · rw [h] at hr ⊢
    cases hr
    exact ⟨fun hcode => by simp at hcode, fun _ => ⟨rfl, rfl⟩, rfl⟩

end Sys2Proof.Machine

/-! ## FAULT mode (R125), and runs that nothing stops (R124) -/

namespace Sys2Proof.Machine

/-- No operation has an effect in FAULT mode. -/
theorem BlockEffect.eq_of_fault {b b' : Block} {i : Instr} (he : BlockEffect b i b') (hf : b.mode = .fault) :
    b' = b := by
  cases he with
  | wrap hr | edge _ hr | ovfchkPending hr | tick hr | settgt _ hr => exact absurd (hr.symm.trans hf) (by decide)
  | wrcfg _ _ _ hu | initAccepted hu | initRejected hu => exact absurd (hu.symm.trans hf) (by decide)
  | ovfchkClear | read | notRunning | locked => rfl

theorem afterWord_block_of_fault {s : State} (hf : s.block.mode = .fault) (w : OpWord) :
    (afterWord s w).block = s.block := by
  obtain ⟨i, -, he⟩ | ⟨why, -, hb⟩ := afterWord_effect s w
  · exact he.eq_of_fault hf
  · exact hb

/-- Of the four classes only the reads pass the mode gates in FAULT mode. -/
theorem answerOf_code_ok_iff_of_fault {b : Block} (hf : b.mode = .fault) (i : Instr) :
    (answerOf i b).resp.code = .ok ↔ isRead i = true := by
  refine ⟨fun hok => ?_, fun hi => answerOf_code_of_isRead hi b⟩
  obtain hi | hi | hi := instr_class i
  · rw [answerOf_of_notRunning hi (by simp [hf])] at hok
    cases hok
  · exact hi
  · rw [answerOf_of_locked hi (by simp [hf])] at hok
    cases hok

/-- Settles O44: the block is kept over the sequence, and the code of each class is decided by its gate. -/
theorem faultIsLeftOnlyByReset : Obligations.FaultIsLeftOnlyByReset := by
  intro s ws hf
  refine ⟨?_, fun w i r hd hr => ?_⟩
  · refine afterWords_keeps (fun t => t.block = s.block) (fun u w hu => ?_) s ws rfl
    exact (afterWord_block_of_fault (hu ▸ hf) w).trans hu
  · rw [afterWord_of_ok s hd] at hr
    cases hr
    exact answerOf_code_ok_iff_of_fault hf i

/-- Settles O50, by induction on the port events: every step has a next state. -/
theorem everyRunGoesOn : Obligations.EveryRunGoesOn := by
  intro es
  induction es with
  | nil => exact fun s => ⟨s, rfl⟩
  | cons e es ih =>
    intro s
    obtain ⟨u, hu⟩ := step_next { s with pins := e }
    rw [RunsFor, drive_cons_of_next hu]
    exact ih u

end Sys2Proof.Machine

/-! ## Reset (R140, R141) -/

namespace Sys2Proof.Machine

/-- Settles O51: reset is the block `inv_reset` speaks of. -/
theorem invariantAtReset : Obligations.InvariantAtReset := inv_reset

theorem step_of_takeInput_reset {s : State} (h : takeInput s.pins = .reset) : step s = .next State.reset := by
  rw [step, h, applyReset]

/-- Settles O13: both inputs ask for a reset. -/
theorem resetFromEveryState : Obligations.ResetFromEveryState := by
  rintro s w (hp | hp) <;> exact step_of_takeInput_reset (by rw [hp]; rfl)

/-- The configuration at reset has the causes ZERO_PPR_GEAR and ZERO_GAIN_DEN (R109). -/
theorem checkCfg_reset : checkCfg Cfg.reset = 3#3 := by decide

theorem initAnswer_reset :
    initAnswer Block.reset = raiseError .cfgError 3 { Block.reset with cfgErr := 3#3, mode := .fault } := by
  obtain ⟨hc, -⟩ | ⟨-, ha⟩ := initAnswer_cases Block.reset
  · exact absurd (checkCfg_reset.symm.trans hc) (by decide)
  · rw [ha, Block.reset_cfg, checkCfg_reset]
    rfl

/-- Settles O14: the values by definition, INIT by `initAnswer_reset`, and `rst` by the step it asks for. -/
theorem resetValues : Obligations.ResetValues := by
  refine ⟨rfl, rfl, rfl, rfl, rfl, rfl, ?_, fun s hp => ?_⟩
  · have hinit : exec .init State.reset = deliver (initAnswer Block.reset) State.reset := exec_init_unconfigured rfl
    rw [initAnswer_reset] at hinit
    exact ⟨_, hinit, rfl, rfl⟩
  · exact ⟨State.reset, step_of_takeInput_reset (by rw [hp]; rfl), rfl, rfl⟩

end Sys2Proof.Machine

/-! ## What only EDGE writes in RUNNING mode (R154) -/

namespace Sys2Proof.Machine

/-- The registers of the RPM Estimator that EDGE writes agree. -/
def SameEstimate (b b' : Block) : Prop :=
  b'.speed = b.speed ∧ b'.prevTs = b.prevTs ∧ b'.prevValid = b.prevValid

theorem SameEstimate.refl (b : Block) : SameEstimate b b := ⟨rfl, rfl, rfl⟩

theorem SameEstimate.trans {b b' b'' : Block} (h : SameEstimate b b') (h' : SameEstimate b' b'') :
    SameEstimate b b'' := by
  obtain ⟨hspeed, hts, hvalid⟩ := h
  obtain ⟨hspeed', hts', hvalid'⟩ := h'
  exact ⟨hspeed'.trans hspeed, hts'.trans hts, hvalid'.trans hvalid⟩

theorem BlockEffect.sameEstimate {b b' : Block} {i : Instr} (he : BlockEffect b i b') (hr : b.mode = .running)
    (hi : ∀ raw, i ≠ .edge raw) : SameEstimate b b' := by
  cases he with
  | edge raw => exact absurd rfl (hi raw)
  | wrcfg _ _ _ hu | initAccepted hu | initRejected hu => exact absurd (hu.symm.trans hr) (by decide)
  | wrap | ovfchkPending | ovfchkClear | tick | settgt | read | notRunning | locked => exact ⟨rfl, rfl, rfl⟩

theorem afterWord_sameEstimate {s : State} (hr : s.block.mode = .running) {w : OpWord}
    (hw : ∀ raw, decode w ≠ .ok (.edge raw)) : SameEstimate s.block (afterWord s w).block := by
  obtain ⟨i, hd, he⟩ | ⟨why, -, hb⟩ := afterWord_effect s w
  · exact he.sameEstimate hr fun raw hi => hw raw (hi ▸ hd)
  · exact hb ▸ .refl _

theorem afterWords_sameEstimate {s : State} (hr : s.block.mode = .running) {ws : List OpWord}
    (hws : ∀ w ∈ ws, ∀ raw, decode w ≠ .ok (.edge raw)) : SameEstimate s.block (afterWords s ws).block := by
  induction ws generalizing s with
  | nil => exact .refl _
  | cons w ws ih =>
    obtain ⟨hw, hws⟩ := List.forall_mem_cons.1 hws
    exact (afterWord_sameEstimate hr hw).trans (ih (afterWord_running_frame hr w).1 hws)

/-- Settles O25: SPEED is one of the registers only EDGE writes. -/
theorem speedIsStaleWithoutEdges : Obligations.SpeedIsStaleWithoutEdges :=
  fun _ _ hr hws => (afterWords_sameEstimate hr hws).1

end Sys2Proof.Machine

/-! ## The words of an environment history (R145) -/

namespace Sys2Proof.Machine

theorem decode_word_eq_wrap_iff {e : EnvEvent} (he : e.proper) : decode e.word = .ok .wrap ↔ e = .wrap := by
  cases e with
  | wrap => exact iff_of_true (decodeOfEncode .wrap) rfl
  | ovfchk | edge => exact iff_of_false (by rw [EnvEvent.word, decodeOfEncode]; nofun) nofun
  | other w => exact iff_of_false he.1 nofun

theorem decode_word_ne_edge {e : EnvEvent} (he : e.proper) (hne : ∀ τ, e ≠ .edge τ) (raw : Raw) :
    decode e.word ≠ .ok (.edge raw) := by
  cases e with
  | wrap | ovfchk => rw [EnvEvent.word, decodeOfEncode]; nofun
  | edge τ => exact absurd rfl (hne τ)
  | other w => exact he.2.2 raw

theorem afterWord_edge {s : State} (hr : s.block.mode = .running) (τ : Nat) :
    (afterWord s (EnvEvent.edge τ).word).block = edgeBlock s.block (rawAt τ) ∧
    (afterWord s (EnvEvent.edge τ).word).resp = some ⟨.ok, extendTs s.block (rawAt τ)⟩ := by
  rw [EnvEvent.word, afterWord_of_ok s (decodeOfEncode _), answerOf, whenRunning_running _ _ hr]
  exact ⟨rfl, rfl⟩

theorem afterWord_wrap_block {s : State} (hr : s.block.mode = .running) :
    (afterWord s EnvEvent.wrap.word).block = recordWrap s.block := by
  rw [EnvEvent.word, afterWord_of_ok s (decodeOfEncode _), answerOf, whenRunning_running _ _ hr]
  rfl

theorem afterWord_ovfchk_block {s : State} (hr : s.block.mode = .running) :
    (afterWord s EnvEvent.ovfchk.word).block = if s.block.ovfPend then consumeWrap s.block else s.block := by
  rw [EnvEvent.word, afterWord_of_ok s (decodeOfEncode _), answerOf, whenRunning_running _ _ hr]
  split <;> rfl

theorem timeEffect_of_ne {i : Instr} (hwrap : i ≠ .wrap) (hovfchk : i ≠ .ovfchk) (hedge : ∀ raw, i ≠ .edge raw)
    (b : Block) : timeEffect i b = b := by
  cases i with
  | wrap => exact absurd rfl hwrap
  | ovfchk => exact absurd rfl hovfchk
  | edge raw => exact absurd rfl (hedge raw)
  | _ => rfl

/-- A word that is none of the three time operations leaves the time path. -/
theorem afterWord_other_timePath {s : State} (hr : s.block.mode = .running) {w : OpWord}
    (hw : (EnvEvent.other w).proper) : timePath (afterWord s w).block = timePath s.block := by
  obtain ⟨hwrap, hovfchk, hedge⟩ := hw
  rw [afterWord_timePath hr]
  obtain ⟨i, hd⟩ | ⟨why, hd⟩ := decode_total w <;> rw [hd] at hwrap hovfchk hedge ⊢
  exact timeEffect_of_ne (fun h => hwrap (h ▸ rfl)) (fun h => hovfchk (h ▸ rfl)) (fun raw h => hedge raw (h ▸ rfl)) _

theorem wrapsIn_append (p q : List EnvEvent) : wrapsIn (p ++ q) = wrapsIn p + wrapsIn q := by
  induction p with
  | nil => exact (Nat.zero_add _).symm
  | cons e p ih => cases e <;> simp [wrapsIn, ih, Nat.add_right_comm]

theorem wrapsIn_eq_zero {q : List EnvEvent} (h : .wrap ∉ q) : wrapsIn q = 0 := by
  induction q with
  | nil => rfl
  | cons e q ih =>
    obtain ⟨hne, hq⟩ := not_or.1 (List.mem_cons.not.1 h)
    cases e with
    | wrap => exact absurd rfl hne
    | ovfchk | edge | other => exact ih hq

/-- In RUNNING mode every WRAP of a history is executed. -/
theorem countWraps_word {s : State} (hr : s.block.mode = .running) {es : List EnvEvent}
    (hes : ∀ e ∈ es, e.proper) : countWraps s (es.map EnvEvent.word) = wrapsIn es := by
  induction es generalizing s with
  | nil => rfl
  | cons e es ih =>
    obtain ⟨he, hes⟩ := List.forall_mem_cons.1 hes
    rw [List.map_cons, countWraps, ih (afterWord_running_frame hr _).1 hes]
    simp only [decode_word_eq_wrap_iff he, hr, and_true]
    cases e <;> simp [wrapsIn, Nat.add_comm]

/-- The account of R68 over a run in RUNNING mode, from any block. -/
theorem afterWords_wrapsAccounted_of_running {s : State} (hr : s.block.mode = .running) (ws : List OpWord) :
    WrapsAccounted s.block (afterWords s ws).block (countWraps s ws) (countIncrements s ws) := by
  induction ws generalizing s with
  | nil => exact .of_unchanged rfl rfl rfl
  | cons w ws ih =>
    rw [countWraps_cons, countIncrements_cons]
    exact (afterWord_wrapsAccounted_of_running hr w).trans (ih (afterWord_running_frame hr w).1)

end Sys2Proof.Machine

/-! ## True timestamps under O1 to O4 (R150)

`WrapsTracked` is what the obligations keep true of the wrap flags at every point of a history. With the account of R68 it
puts ROLLOVER, after EXTEND's increment, at the number of physical wraps up to the capture. -/

namespace Sys2Proof.Machine

/-- A history that meets the obligations. -/
structure MeetsObligations (thr : Data) (es : List EnvEvent) : Prop where
  proper : ∀ e ∈ es, e.proper
  o1 : ObligationO1 es
  o2 : ObligationO2 thr es
  o3 : ObligationO3 es
  o4 : ObligationO4 thr es

/-- The wrap flags of the block after the events `p`, with the events `q` to come: OVF_PEND is set only while R149's
pending wrap is, and once it is clear no edge to come was captured before the last wrap reported. -/
structure WrapsTracked (thr : Data) (b : Block) (p q : List EnvEvent) : Prop where
  overrun : b.wrapOverrun = false
  pending : b.ovfPend = true → WrapPending thr p
  settled : b.ovfPend = false → ∀ τ, .edge τ ∈ q → wrapsIn p ≤ wrapsAt τ

theorem WrapPending.concat {thr : Data} {p : List EnvEvent} {e : EnvEvent} (h : WrapPending thr p) (hne : e ≠ .wrap)
    (he : ¬ e.consumes thr) : WrapPending thr (p ++ [e]) := by
  obtain ⟨p₀, q₀, rfl, hwrap, hkeep⟩ := h
  refine ⟨p₀, q₀ ++ [e], by simp, by simp [hwrap, hne.symm], fun e' he' => ?_⟩
  obtain he' | he' := List.mem_append.1 he'
  · exact hkeep e' he'
  · exact List.mem_singleton.1 he' ▸ he

/-- An event that neither reports nor consumes a wrap keeps the flags tracked, where it keeps the flags. -/
theorem WrapsTracked.of_kept {thr : Data} {b b' : Block} {p q : List EnvEvent} {e : EnvEvent}
    (h : WrapsTracked thr b p (e :: q)) (hover : b'.wrapOverrun = b.wrapOverrun) (hpend : b'.ovfPend = b.ovfPend)
    (hne : e ≠ .wrap) (he : b.ovfPend = true → ¬ e.consumes thr) : WrapsTracked thr b' (p ++ [e]) q where
  overrun := hover.trans h.overrun
  pending hp := by
    rw [hpend] at hp
    exact (h.pending hp).concat hne (he hp)
  settled hp τ hτ := by
    rw [wrapsIn_append, wrapsIn_eq_zero (q := [e]) (by simpa using hne.symm)]
    exact h.settled (hpend.symm.trans hp) τ (List.mem_cons_of_mem _ hτ)

/-- O2: a WRAP finds the last one consumed (R149). -/
theorem MeetsObligations.not_pending_at_wrap {thr : Data} {es p q : List EnvEvent} (h : MeetsObligations thr es)
    (hes : es = p ++ .wrap :: q) : ¬ WrapPending thr p := by
  rintro ⟨p₀, q₀, rfl, hwrap, hkeep⟩
  obtain ⟨e, he, hc⟩ := h.o2 p₀ q₀ q (by simp [hes]) hwrap
  exact hkeep e he hc

/-- O3: an OVFCHK that finds a wrap pending runs only when every edge to come was captured after that wrap (R151). -/
theorem MeetsObligations.settled_at_ovfchk {thr : Data} {es p q : List EnvEvent} (h : MeetsObligations thr es)
    (hes : es = p ++ .ovfchk :: q) (hp : WrapPending thr p) {τ : Nat} (hτ : .edge τ ∈ q) :
    wrapsIn p ≤ wrapsAt τ := by
  obtain ⟨p₀, q₀, rfl, hwrap, -⟩ := hp
  obtain ⟨r₁, r₂, rfl⟩ := List.append_of_mem hτ
  have hcount : wrapsIn (p₀ ++ .wrap :: q₀) = wrapsIn p₀ + 1 := by
    rw [wrapsIn_append, wrapsIn, wrapsIn_eq_zero hwrap]
  have hlate : ¬ (wrapsIn p₀ + 1) * 2 ^ 16 > τ := fun hgt =>
    h.o3 p₀ (q₀ ++ .ovfchk :: r₁) τ r₂ (by simp [hes]) hgt (by simp)
  rw [hcount, wrapsAt]
  omega

/-- O1 (a): captures come in order (R148). -/
theorem MeetsObligations.captures_ordered {thr : Data} {es p q : List EnvEvent} {τ τ' : Nat}
    (h : MeetsObligations thr es) (hes : es = p ++ .edge τ :: q) (hτ' : .edge τ' ∈ q) : τ ≤ τ' := by
  obtain ⟨r₁, r₂, rfl⟩ := List.append_of_mem hτ'
  exact (h.o1 (p ++ .edge τ :: r₁) τ' r₂ (by simp [hes])).1 τ (by simp)

/-- O4: an EDGE that finds a wrap pending consumes it just where the wrap happened at or before its capture (R152). -/
theorem MeetsObligations.consumes_iff {thr : Data} {es p q : List EnvEvent} {τ : Nat} (h : MeetsObligations thr es)
    (hes : es = p ++ .edge τ :: q) (hp : WrapPending thr p) :
    (rawAt τ).toNat < thr.toNat ↔ wrapsIn p ≤ wrapsAt τ := by
  obtain ⟨hbefore, hafter⟩ := h.o4 p τ q hes hp
  refine ⟨fun hlow => ?_, hbefore⟩
  by_contra hlt
  exact absurd (hafter (Nat.lt_of_not_le hlt)) (Nat.not_le_of_lt hlow)

/-- One event of a history that meets the obligations keeps the flags tracked. -/
theorem WrapsTracked.step {thr : Data} {s : State} {es p q : List EnvEvent} {e : EnvEvent}
    (h : WrapsTracked thr s.block p (e :: q)) (hes : es = p ++ e :: q) (hm : MeetsObligations thr es)
    (hr : s.block.mode = .running) (hthr : s.block.cfg.lowThreshold = thr) :
    WrapsTracked thr (afterWord s e.word).block (p ++ [e]) q := by
  cases e with
  | wrap =>
    have hpend : s.block.ovfPend = false :=
      Bool.eq_false_of_not_eq_true fun hp => hm.not_pending_at_wrap hes (h.pending hp)
    rw [afterWord_wrap_block hr]
    exact ⟨by simp [h.overrun, hpend], fun _ => ⟨p, [], rfl, by simp, by simp⟩, nofun⟩
  | ovfchk =>
    rw [afterWord_ovfchk_block hr]
    split
    next hp =>
      refine ⟨h.overrun, nofun, fun _ τ hτ => ?_⟩
      rw [wrapsIn_append]
      exact hm.settled_at_ovfchk hes (h.pending hp) hτ
    next hp => exact h.of_kept rfl rfl nofun fun hp' => absurd hp' hp
  | edge τ =>
    rw [(afterWord_edge hr τ).1, edgeBlock_frame]
    obtain ⟨hp, hlow, hb⟩ | ⟨hkeep, hb⟩ := extendBlock_cases s.block (rawAt τ) <;> rw [hb]
    · refine ⟨h.overrun, nofun, fun _ τ' hτ' => ?_⟩
      have hcaptured : wrapsIn p ≤ wrapsAt τ := (hm.consumes_iff hes (h.pending hp)).1 (hthr ▸ hlow)
      rw [wrapsIn_append]
      exact hcaptured.trans (Nat.div_le_div_right (hm.captures_ordered hes hτ'))
    · exact h.of_kept rfl rfl nofun fun hp hlow => hkeep ⟨hp, hthr ▸ hlow⟩
  | other w =>
    have hproper : (EnvEvent.other w).proper := hm.proper _ (by simp [hes])
    obtain ⟨hpend, hover, -⟩ := (timePath_eq_iff _ _).1 (afterWord_other_timePath hr hproper)
    exact h.of_kept hover hpend nofun fun _ => id

/-- What R150 assumes of a run. -/
structure ObligedRun (s : State) (es : List EnvEvent) : Prop where
  running : s.block.mode = .running
  rollover : s.block.rollover = 0
  ovfPend : s.block.ovfPend = false
  wrapOverrun : s.block.wrapOverrun = false
  meets : MeetsObligations s.block.cfg.lowThreshold es

/-- The state after the events of a history. -/
def afterEvents (s : State) (es : List EnvEvent) : State := afterWords s (es.map EnvEvent.word)

theorem afterEvents_append (s : State) (p q : List EnvEvent) :
    afterEvents s (p ++ q) = afterEvents (afterEvents s p) q := by
  rw [afterEvents, List.map_append, afterWords_append]
  rfl

theorem afterEvents_concat (s : State) (p : List EnvEvent) (e : EnvEvent) :
    afterEvents s (p ++ [e]) = afterWord (afterEvents s p) e.word :=
  afterEvents_append s p [e]

section
variable {s : State} {es p q : List EnvEvent} {τ : Nat}

theorem afterEvents_running (hr : s.block.mode = .running) (p : List EnvEvent) :
    (afterEvents s p).block.mode = .running :=
  afterWords_running hr _

theorem afterEvents_cfg (hr : s.block.mode = .running) (p : List EnvEvent) :
    (afterEvents s p).block.cfg = s.block.cfg :=
  (configurationIsConstantWhileRunning s _ hr).2.1

/-- The wrap flags are tracked at every point of the run, by induction on the events before it. -/
theorem ObligedRun.tracked (h : ObligedRun s es) (hes : es = p ++ q) :
    WrapsTracked s.block.cfg.lowThreshold (afterEvents s p).block p q := by
  induction p using List.reverseRecOn generalizing q with
  | nil => exact ⟨h.wrapOverrun, fun hp => absurd (h.ovfPend.symm.trans hp) nofun, fun _ _ _ => Nat.zero_le _⟩
  | append_singleton p e ih =>
    have hes' : es = p ++ e :: q := by simp [hes]
    rw [afterEvents_concat]
    exact (ih hes').step hes' h.meets (afterEvents_running h.running p) (by rw [afterEvents_cfg h.running])

/-- At every point of the run the increments and the pending wrap are the WRAPs so far, and ROLLOVER the increments. -/
theorem ObligedRun.accounted (h : ObligedRun s es) (hes : es = p ++ q) :
    countIncrements s (p.map EnvEvent.word) + pendingWraps (afterEvents s p).block = wrapsIn p ∧
    (afterEvents s p).block.rollover = BitVec.ofNat 16 (countIncrements s (p.map EnvEvent.word)) := by
  have hacc := afterWords_wrapsAccounted_of_running h.running (p.map EnvEvent.word)
  have hproper : ∀ e ∈ p, e.proper := fun e he => h.meets.proper e (by simp [hes, he])
  have hclear : pendingWraps s.block = 0 := by simp [pendingWraps, h.ovfPend]
  have hcount := (hacc.exactlyOnce (h.tracked hes).overrun).2
  rw [countWraps_word h.running hproper, hclear] at hcount
  exact ⟨hcount, by simp [afterEvents, hacc.rollover, h.rollover]⟩

/-- The number EXTEND puts in the high half is that of the physical wraps up to the capture. -/
theorem ObligedRun.extend_rollover (h : ObligedRun s es) (hes : es = p ++ .edge τ :: q) :
    (extendBlock (afterEvents s p).block (rawAt τ)).rollover = BitVec.ofNat 16 (wrapsAt τ) := by
  have htracked := h.tracked hes
  obtain ⟨hcount, hroll⟩ := h.accounted hes
  obtain ⟨-, hreported, hearly⟩ := h.meets.o1 p τ q hes
  have hcfg := afterEvents_cfg h.running p
  generalize (afterEvents s p).block = b at *
  obtain ⟨hp, hlow, hb⟩ | ⟨hkeep, hb⟩ := extendBlock_cases b (rawAt τ) <;> rw [hb, hroll]
  · have hcaptured := (h.meets.consumes_iff hes (htracked.pending hp)).1 (hcfg ▸ hlow)
    rw [pendingWraps, if_pos hp] at hcount
    have htotal : wrapsAt τ = countIncrements s (p.map EnvEvent.word) + 1 := by omega
    rw [htotal, BitVec.ofNat_add]
    rfl
  · congr 1
    cases hp : b.ovfPend with
    | true =>
      have hlater : ¬ wrapsIn p ≤ wrapsAt τ := fun hle =>
        hkeep ⟨hp, hcfg ▸ (h.meets.consumes_iff hes (htracked.pending hp)).2 hle⟩
      rw [pendingWraps, if_pos hp] at hcount
      omega
    | false =>
      have hcaptured := htracked.settled hp τ (List.mem_cons_self ..)
      rw [pendingWraps, if_neg (by simp [hp])] at hcount
      omega

/-- The timestamp is the true time modulo 2^32 (R150). -/
theorem ObligedRun.extendTs_true (h : ObligedRun s es) (hes : es = p ++ .edge τ :: q) :
    extendTs (afterEvents s p).block (rawAt τ) = BitVec.ofNat 32 τ := by
  apply BitVec.eq_of_toNat_eq
  rw [extendTs_toNat, h.extend_rollover hes, rawAt, wrapsAt]
  simp only [BitVec.toNat_ofNat]
  omega

theorem ObligedRun.edge_resp (h : ObligedRun s es) (hes : es = p ++ .edge τ :: q) :
    (afterEvents s (p ++ [.edge τ])).resp = some ⟨.ok, BitVec.ofNat 32 τ⟩ := by
  rw [afterEvents_concat, (afterWord_edge (afterEvents_running h.running p) τ).2, h.extendTs_true hes]

/-- Up to the next EDGE the true time of the last one stands in PREV_TS. -/
theorem ObligedRun.prevTs_true {r : List EnvEvent} (h : ObligedRun s es) (hes : es = p ++ .edge τ :: (q ++ r))
    (hq : ∀ x, .edge x ∉ q) :
    (afterEvents s (p ++ .edge τ :: q)).block.prevTs = BitVec.ofNat 32 τ ∧
    (afterEvents s (p ++ .edge τ :: q)).block.prevValid = true := by
  have hr := afterEvents_running h.running (p ++ [.edge τ])
  have hwords : ∀ w ∈ q.map EnvEvent.word, ∀ raw, decode w ≠ .ok (.edge raw) := by
    simp only [List.forall_mem_map]
    exact fun e he => decode_word_ne_edge (h.meets.proper e (by simp [hes, he])) fun x hx => hq x (hx ▸ he)
  obtain ⟨-, hts, hvalid⟩ := afterWords_sameEstimate hr hwords
  rw [List.append_cons, afterEvents_append]
  refine ⟨hts.trans ?_, hvalid.trans ?_⟩ <;>
    rw [afterEvents_concat, (afterWord_edge (afterEvents_running h.running p) τ).1]
  · exact h.extendTs_true hes
  · rfl

/-- Durations of consecutive edges are true distances modulo 2^32. -/
theorem ObligedRun.duration_true {τ' : Nat} {r : List EnvEvent} (h : ObligedRun s es)
    (hes : es = p ++ .edge τ :: (q ++ .edge τ' :: r)) (hq : ∀ x, .edge x ∉ q) :
    duration (afterEvents s (p ++ .edge τ :: q)).block
      (extendTs (afterEvents s (p ++ .edge τ :: q)).block (rawAt τ')) = BitVec.ofNat 32 (τ' - τ) := by
  obtain ⟨hts, hvalid⟩ := h.prevTs_true hes hq
  have hle : τ ≤ τ' := h.meets.captures_ordered hes (by simp)
  rw [h.extendTs_true (q := r) (by simp [hes]), duration_eq, if_pos hvalid, hts]
  conv_lhs => rw [← Nat.sub_add_cancel hle, BitVec.ofNat_add]
  exact BitVec.add_sub_cancel _ _

end

/-- Settles O24: each clause is a lemma about an `ObligedRun`. -/
theorem timestampsAreTrueUnderObligations : Obligations.TimestampsAreTrueUnderObligations := by
  intro s es hr hroll hpend hover hproper ho1 ho2 ho3 ho4
  have h : ObligedRun s es := ⟨hr, hroll, hpend, hover, hproper, ho1, ho2, ho3, ho4⟩
  refine ⟨fun p τ q => h.edge_resp, ?_, ?_, (h.tracked (List.append_nil es).symm).overrun,
    (h.accounted (List.append_nil es).symm).1⟩
  · rintro p τ q τ' r u hes hq rfl
    exact h.duration_true hes hq
  · intro p τ q τ' r hes hlt
    have hle : τ ≤ τ' := h.meets.captures_ordered hes (by simp)
    refine ⟨_, _, h.edge_resp hes, h.edge_resp (q := r) (by simp [hes]), ?_⟩
    rw [BitVec.toNat_ofNat, BitVec.toNat_ofNat, Nat.mod_eq_of_lt (hle.trans_lt hlt), Nat.mod_eq_of_lt hlt]
    exact hle

end Sys2Proof.Machine
